-- ==== Sys2Proof/Word.lean ====
section
/-! DEFINITION. The fixed-width types of the block: a byte of `OUT` (rule R10), a 16-bit
instruction word (rule R5 `WORD_BITS`), and the 32-bit payloads `u32` and `i32` (rule R5
`ADDR_BITS`, `DELTA_BITS`). Everything else the spec computes with is a natural number or an
integer of unbounded size (rules R6, R112, R145) and is a `Nat` or an `Int` here. -/

namespace Sys2Proof

/-- One byte of `OUT` (rule R10). -/
abbrev Byte := BitVec 8

/-- One output instruction word (rule R5 `WORD_BITS` = 16). -/
abbrev Word := BitVec 16

/-- `u32` (rule R6): read with `toNat`. -/
abbrev U32 := BitVec 32

/-- `i32` (rule R6), two's complement (rule R5 `DELTA_BITS`): read with `toInt`. -/
abbrev I32 := BitVec 32

end Sys2Proof
end

