-- ==== Sys2Proof/Syntax.lean ====
section
/-! DEFINITION. What travels in a command: the operand values of rule R56, the slot kinds and
catalog entries of rules R65 and R66, the command record of rule R62, and `Instr`, one constructor
per row of spec/opcode_table.json. -/

namespace Sys2Proof

/-- A field designator (rule R51): one of the 52 ASCII letters; upper and lower case differ (D9). -/
structure Letter where
  upper : Bool
  index : Fin 26
deriving DecidableEq, Repr

/-- A field width `N >= 1` (rule R56), held as `N - 1`, so that no width 0 can be written
(DESIGN CHOICE, log 10). -/
structure Width where
  lessOne : Nat
deriving DecidableEq, Repr

/-- A `Register` value: an identifier, 8 bits wide at the interface (rules R13, R56; D33). -/
structure Register where
  id : BitVec 8
deriving DecidableEq, Repr

/-- A `RegisterPair` value `(high, low)` (rules R14, R56); an invalid one can be presented. -/
structure RegisterPair where
  high : Register
  low  : Register
deriving DecidableEq, Repr

/-- An `Offset` value (rule R56). `relative` holds the stored word count: the halved byte delta. -/
inductive Offset where
  | absolute (addr : U32)
  | relative (d : I32)
deriving DecidableEq, Repr

/-- An `AddressingMode` value (rules R56, R85 to R88). -/
inductive AddressingMode where
  | plain   (pair : RegisterPair)
  | preDec  (pair : RegisterPair)
  | postInc (pair : RegisterPair)
  | disp    (pair : RegisterPair) (q : Nat)
deriving DecidableEq, Repr

/-- The instruction classes of the dispatcher (rule R150, D24). -/
inductive AccessClass where
  | load
  | store
  | pmread
deriving DecidableEq, Repr

/-- The three index pairs by name (rules R5, R82). -/
inductive IndexName where
  | A
  | B
  | C
deriving DecidableEq, Repr

/-- The three modes SEL.MODE tells apart (rule R152). -/
inductive ModeTag where
  | plain
  | preDec
  | postInc
deriving DecidableEq, Repr

/-- One triple `(x, v, N)` of PACK's operand list (rule R120): letter, pattern, declared width. -/
structure PackField where
  letter : Letter
  value  : Nat
  width  : Nat
deriving DecidableEq, Repr

/-- The slot kinds of a catalog entry (rule R65, D37). -/
inductive Slot where
  | reg   (x : Letter)
  | pair  (x : Letter)
  | uimm  (x : Letter)
  | simm  (x : Letter)
  | rel   (x : Letter)
  | abs2  (x : Letter)
  | fixed
deriving DecidableEq, Repr

/-- A typed operand value of an EMIT (rule R65, column 2). -/
inductive Operand where
  | reg    (r : Register)
  | pair   (p : RegisterPair)
  | nat    (v : Nat)
  | int    (v : I32)
  | offset (o : Offset)
deriving DecidableEq, Repr

/-- A catalog entry `(name, slots, template)`, an input of EMIT (rule R66); the name has no effect. -/
structure CatalogEntry where
  name     : String
  slots    : List Slot
  template : String
deriving DecidableEq, Repr

/-- The operand part of a command record (rule R62): one typed field per operand name of the table
(DESIGN CHOICE, log 1). A command reads the fields its row names; the others are ignored. -/
structure OperandRecord where
  /-- OFF.ABS `addr` -/
  addr     : U32
  /-- OFF.REL `bytes` -/
  bytes    : I32
  /-- AM.*, ENC.PAIR, ENC.FIXED `pair` -/
  pair     : RegisterPair
  /-- AM.DISP `q` -/
  q        : Nat
  /-- ENC.REG*, EMIT.MODE, EMIT.DISP `reg` -/
  reg      : Register
  /-- ENC.PAIR, ENC.UIMM, ENC.SOFF `N` -/
  width    : Width
  /-- ENC.UIMM `v : ℕ` -/
  natural  : Nat
  /-- ENC.SOFF `v : i32` -/
  integer  : I32
  /-- RES.* `offset` -/
  offset   : Offset
  /-- PACK `fields` -/
  fields   : List PackField
  /-- PACK `template` -/
  template : String
  /-- SEL.*, EMIT.MODE, EMIT.DISP `class` -/
  cls      : AccessClass
  /-- SEL.*, EMIT.MODE, EMIT.DISP `mode` -/
  mode     : AddressingMode
  /-- EMIT `entry` -/
  entry    : CatalogEntry
  /-- EMIT `operands` -/
  operands : List Operand
  /-- RDOUT `addr` -/
  start    : Nat
  /-- RDOUT `n` -/
  count    : Nat
deriving DecidableEq, Repr

/-- A command record: an 8-bit selector and the operands (rule R62; D1, D2). -/
structure Command where
  op   : Byte
  args : OperandRecord
deriving DecidableEq, Repr

/-- The 27 operations of spec/opcode_table.json, with their operands (rule R62). -/
inductive Instr where
  /-- OFF.ABS (rule R83) -/
  | offAbs (addr : U32)
  /-- OFF.REL (rule R84) -/
  | offRel (bytes : I32)
  /-- AM.PLAIN (rule R85) -/
  | amPlain (pair : RegisterPair)
  /-- AM.PREDEC (rule R86) -/
  | amPreDec (pair : RegisterPair)
  /-- AM.POSTINC (rule R87) -/
  | amPostInc (pair : RegisterPair)
  /-- AM.DISP (rule R88) -/
  | amDisp (pair : RegisterPair) (q : Nat)
  /-- ENC.REG5 (rule R102) -/
  | encReg5 (reg : Register)
  /-- ENC.REG4 (rule R103) -/
  | encReg4 (reg : Register)
  /-- ENC.REG3 (rule R104) -/
  | encReg3 (reg : Register)
  /-- ENC.REG10 (rule R105) -/
  | encReg10 (reg : Register)
  /-- ENC.PAIR (rule R106) -/
  | encPair (pair : RegisterPair) (n : Width)
  /-- ENC.UIMM (rule R107) -/
  | encUimm (v : Nat) (n : Width)
  /-- ENC.SOFF (rule R108) -/
  | encSoff (v : I32) (n : Width)
  /-- ENC.FIXED (rule R109) -/
  | encFixed (pair : RegisterPair)
  /-- RES.ABS (rule R141) -/
  | resAbs (off : Offset)
  /-- RES.ABS2 (rule R142) -/
  | resAbs2 (off : Offset)
  /-- RES.REL (rule R143) -/
  | resRel (off : Offset)
  /-- PACK (rule R120) -/
  | pack (fields : List PackField) (template : String)
  /-- SEL.MODE (rule R152) -/
  | selMode (cls : AccessClass) (am : AddressingMode)
  /-- SEL.DISP (rule R153) -/
  | selDisp (cls : AccessClass) (am : AddressingMode)
  /-- EMIT (rule R170) -/
  | emit (entry : CatalogEntry) (operands : List Operand)
  /-- EMIT.MODE (rule R174) -/
  | emitMode (cls : AccessClass) (reg : Register) (am : AddressingMode)
  /-- EMIT.DISP (rule R175) -/
  | emitDisp (cls : AccessClass) (reg : Register) (am : AddressingMode)
  /-- RESET (rule R178) -/
  | reset
  /-- RDLEN (rule R179) -/
  | rdlen
  /-- RDOUT (rule R180) -/
  | rdout (addr : Nat) (n : Nat)
  /-- RDSTAT (rule R181) -/
  | rdstat
deriving DecidableEq, Repr

end Sys2Proof
end

