-- ==== Sys2Proof/Config.lean ====
section
/-! DEFINITION. The implementation parameters of rule R5. The fixed ones are constants; the OPEN ones
(D20 to D23) are the record `Config.Params`, which every operation that uses them takes as an
argument. The defaults rule R5 gives the OPEN ones are `Machine.params` in Machine/Tables.lean.
No behaviour of this block is "any value" (spec/93 Part 1), so there is no free value here. -/

namespace Sys2Proof

/-- `WORD_BITS` (rule R5): width of one output instruction word. -/
def Config.wordBits : Nat := 16

/-- `MAX_WORDS` (rule R5, D8): the longest template in words. -/
def Config.maxWords : Nat := 2

/-- The greatest valid register identifier (rule R5 `REG_IDS`). -/
def Config.maxRegId : Nat := 31

/-- `DISP_MAX` (rule R5): the greatest displacement. -/
def Config.dispMax : Nat := 63

/-- A cell of `MODE_TABLE`: a template and the letter of its register field (rule R152). -/
structure ModeEntry where
  template : String
  regLetter : Letter
deriving DecidableEq, Repr

/-- A cell of `DISP_TABLE`: a template, its register letter and its displacement letter (rule R153). -/
structure DispEntry where
  template : String
  regLetter : Letter
  dispLetter : Letter
deriving DecidableEq, Repr

/-- The OPEN parameters of rule R5. A table cell `none` is INVALID. -/
structure Config.Params where
  /-- `IDX_A`, `IDX_B`, `IDX_C` (D20) -/
  idx : IndexName → RegisterPair
  /-- `FIXED_PAIR` (D21) -/
  fixedPair : RegisterPair
  /-- `DISP_PAIRS` (D22), by name -/
  dispPairs : List IndexName
  /-- `MODE_TABLE` (D23) -/
  modeTable : AccessClass → IndexName → ModeTag → Option ModeEntry
  /-- `DISP_TABLE` (D23) -/
  dispTable : AccessClass → IndexName → Option DispEntry

end Sys2Proof
end

