-- ==== Sys2Proof/WellFormed.lean ====
section
/-! DEFINITION. Which terms of `Instr` are commands of the spec's command type. Every operand but
EMIT's is constrained by its Lean type; EMIT's command type "admits only: |operands| = |slots|, and
operands[k] of the value type its slot kind takes" (rules R65, R90, R170), which is checked here. -/

namespace Sys2Proof

/-- The field width itself (rule R56: `N >= 1`). -/
def Width.bits (n : Width) : Nat := n.lessOne + 1

/-- A slot together with the operand that fills it, of the type its kind takes (rule R65). -/
inductive TypedSlot where
  | reg   (x : Letter) (r : Register)
  | pair  (x : Letter) (p : RegisterPair)
  | uimm  (x : Letter) (v : Nat)
  | simm  (x : Letter) (v : I32)
  | rel   (x : Letter) (o : Offset)
  | abs2  (x : Letter) (o : Offset)
  | fixed (p : RegisterPair)
deriving DecidableEq, Repr

/-- The operand `v` in the slot `sl`, or `none` where the kinds differ: no value of one kind is
taken for another (rule R90). -/
def bindSlot : Slot → Operand → Option TypedSlot
  | .reg x,  .reg r    => some (.reg x r)
  | .pair x, .pair p   => some (.pair x p)
  | .uimm x, .nat v    => some (.uimm x v)
  | .simm x, .int v    => some (.simm x v)
  | .rel x,  .offset o => some (.rel x o)
  | .abs2 x, .offset o => some (.abs2 x o)
  | .fixed,  .pair p   => some (.fixed p)
  | _,       _         => none

/-- All operands in their slots, in catalog order; `none` where the counts or a kind differ
(rule R170: "one per slot, in slot order"). -/
def bindSlots : List Slot → List Operand → Option (List TypedSlot)
  | [], [] => some []
  | sl :: slots, v :: operands =>
    match bindSlot sl v, bindSlots slots operands with
    | some b, some bs => some (b :: bs)
    | _, _ => none
  | _, _ => none

/-- The term is a command of the spec's command type. -/
def Instr.wf : Instr → Bool
  | .emit entry operands => (bindSlots entry.slots operands).isSome
  | _ => true

end Sys2Proof
end

