-- ==== Sys2Proof/Decode.lean ====
section
/-! DEFINITION. The selector map of rule R62 read as a decoder (total on every record; rejecting by
name), and after it the encoder, its inverse on well-formed instructions. -/

namespace Sys2Proof

/-- Why a record is no command. -/
inductive DecodeError where
  /-- The selector is not in the table of rule R62 (rule R63): the block faults BAD_COMMAND. -/
  | reservedSelector (op : Byte)
  /-- EMIT with operands that do not fit its slots: the command type does not admit it (rules R90, R170). -/
  | illTypedOperands
deriving DecidableEq, Repr

/-- The opcode map of rule R62: selector and operands to the operation. -/
def decode (c : Command) : Except DecodeError Instr :=
  match c.op.toNat with
  | 0x00 => .ok (.offAbs c.args.addr)
  | 0x01 => .ok (.offRel c.args.bytes)
  | 0x02 => .ok (.amPlain c.args.pair)
  | 0x03 => .ok (.amPreDec c.args.pair)
  | 0x04 => .ok (.amPostInc c.args.pair)
  | 0x05 => .ok (.amDisp c.args.pair c.args.q)
  | 0x10 => .ok (.encReg5 c.args.reg)
  | 0x11 => .ok (.encReg4 c.args.reg)
  | 0x12 => .ok (.encReg3 c.args.reg)
  | 0x13 => .ok (.encReg10 c.args.reg)
  | 0x14 => .ok (.encPair c.args.pair c.args.width)
  | 0x15 => .ok (.encUimm c.args.natural c.args.width)
  | 0x16 => .ok (.encSoff c.args.integer c.args.width)
  | 0x17 => .ok (.encFixed c.args.pair)
  | 0x20 => .ok (.resAbs c.args.offset)
  | 0x21 => .ok (.resAbs2 c.args.offset)
  | 0x22 => .ok (.resRel c.args.offset)
  | 0x30 => .ok (.pack c.args.fields c.args.template)
  | 0x40 => .ok (.selMode c.args.cls c.args.mode)
  | 0x41 => .ok (.selDisp c.args.cls c.args.mode)
  | 0x48 =>
    if (Instr.emit c.args.entry c.args.operands).wf then .ok (.emit c.args.entry c.args.operands)
    else .error .illTypedOperands
  | 0x49 => .ok (.emitMode c.args.cls c.args.reg c.args.mode)
  | 0x4A => .ok (.emitDisp c.args.cls c.args.reg c.args.mode)
  | 0x70 => .ok .reset
  | 0x71 => .ok .rdlen
  | 0x72 => .ok (.rdout c.args.start c.args.count)
  | 0x73 => .ok .rdstat
  | _ => .error (.reservedSelector c.op)

/-- The operand record of zeros: what the fields a row does not name hold in an encoded command
(DESIGN CHOICE, log 1). -/
def OperandRecord.zero : OperandRecord where
  addr := 0#32
  bytes := 0#32
  pair := ⟨⟨0#8⟩, ⟨0#8⟩⟩
  q := 0
  reg := ⟨0#8⟩
  width := ⟨0⟩
  natural := 0
  integer := 0#32
  offset := .absolute 0#32
  fields := []
  template := ""
  cls := .load
  mode := .plain ⟨⟨0#8⟩, ⟨0#8⟩⟩
  entry := ⟨"", [], ""⟩
  operands := []
  start := 0
  count := 0

/-- The command record of an operation: its selector from the table of rule R62 and its operands in
the fields its row names. -/
def encode : Instr → Command
  | .offAbs addr => ⟨0x00#8, { OperandRecord.zero with addr := addr }⟩
  | .offRel bytes => ⟨0x01#8, { OperandRecord.zero with bytes := bytes }⟩
  | .amPlain pair => ⟨0x02#8, { OperandRecord.zero with pair := pair }⟩
  | .amPreDec pair => ⟨0x03#8, { OperandRecord.zero with pair := pair }⟩
  | .amPostInc pair => ⟨0x04#8, { OperandRecord.zero with pair := pair }⟩
  | .amDisp pair q => ⟨0x05#8, { OperandRecord.zero with pair := pair, q := q }⟩
  | .encReg5 reg => ⟨0x10#8, { OperandRecord.zero with reg := reg }⟩
  | .encReg4 reg => ⟨0x11#8, { OperandRecord.zero with reg := reg }⟩
  | .encReg3 reg => ⟨0x12#8, { OperandRecord.zero with reg := reg }⟩
  | .encReg10 reg => ⟨0x13#8, { OperandRecord.zero with reg := reg }⟩
  | .encPair pair n => ⟨0x14#8, { OperandRecord.zero with pair := pair, width := n }⟩
  | .encUimm v n => ⟨0x15#8, { OperandRecord.zero with natural := v, width := n }⟩
  | .encSoff v n => ⟨0x16#8, { OperandRecord.zero with integer := v, width := n }⟩
  | .encFixed pair => ⟨0x17#8, { OperandRecord.zero with pair := pair }⟩
  | .resAbs off => ⟨0x20#8, { OperandRecord.zero with offset := off }⟩
  | .resAbs2 off => ⟨0x21#8, { OperandRecord.zero with offset := off }⟩
  | .resRel off => ⟨0x22#8, { OperandRecord.zero with offset := off }⟩
  | .pack fields template => ⟨0x30#8, { OperandRecord.zero with fields := fields, template := template }⟩
  | .selMode cls am => ⟨0x40#8, { OperandRecord.zero with cls := cls, mode := am }⟩
  | .selDisp cls am => ⟨0x41#8, { OperandRecord.zero with cls := cls, mode := am }⟩
  | .emit entry operands => ⟨0x48#8, { OperandRecord.zero with entry := entry, operands := operands }⟩
  | .emitMode cls reg am => ⟨0x49#8, { OperandRecord.zero with cls := cls, reg := reg, mode := am }⟩
  | .emitDisp cls reg am => ⟨0x4A#8, { OperandRecord.zero with cls := cls, reg := reg, mode := am }⟩
  | .reset => ⟨0x70#8, OperandRecord.zero⟩
  | .rdlen => ⟨0x71#8, OperandRecord.zero⟩
  | .rdout addr n => ⟨0x72#8, { OperandRecord.zero with start := addr, count := n }⟩
  | .rdstat => ⟨0x73#8, OperandRecord.zero⟩

/-- The command whose selector is the low byte of `w` and whose operands are all zero: the table
gives a row 8 bits, the selector, and the operands no bits (rule R62). -/
def tableCommand (w : Nat) : Command := ⟨BitVec.ofNat 8 w, OperandRecord.zero⟩

/-- The instruction the decoder reads from a table word of `nbits` bits. A command has no bits above
its selector (rule R62, D2), so no other length is a command. -/
def decodeTableWord (nbits w : Nat) : Option Instr :=
  if nbits = 8 then
    match decode (tableCommand w) with
    | .ok i => some i
    | .error _ => none
  else none

end Sys2Proof
end

