-- ==== Sys2Proof/Machine/State.lean ====
section
/-! DEFINITION. The state of the block: `OUT`, `FAULT` and `CAUSE` (rules R10 to R12; `LEN` is
`|OUT|`), and the model's two ends of the host interface, the commands the host has yet to issue and
the response to the last one (rules R62, R64; logs 2 and 3). -/

namespace Sys2Proof.Machine

/-- The fault causes by name (rule R200). `Cause.code` (Machine/Flags.lean) gives the 5-bit code. -/
inductive Cause where
  | noFault
  | regRange
  | regWidth
  | pairInvalid
  | pairRange
  | immRange
  | soffRange
  | fixedMismatch
  | deltaOdd
  | absOdd
  | offsetRange
  | modeInvalid
  | designatorMismatch
  | widthMismatch
  | templateWidth
  | templateChar
  | badCommand
deriving DecidableEq, Repr

/-- The value of an OK response (rule R64): "a pattern, an integer, an Offset, an AddressingMode, a
template, the appended bytes, or nothing" (typed forms: DESIGN CHOICE, log 11). -/
inductive Value where
  /-- nothing: ENC.FIXED, RESET -/
  | nothing
  /-- OFF.ABS, OFF.REL -/
  | offset (o : Offset)
  /-- AM.* -/
  | mode (am : AddressingMode)
  /-- ENC.*: the integer result and its width (rule R56 "operand bit pattern") -/
  | pattern (v : Nat) (width : Nat)
  /-- RES.ABS, RES.ABS2 -/
  | u32 (a : U32)
  /-- RES.REL -/
  | i32 (r : I32)
  /-- SEL.MODE -/
  | modeEntry (e : ModeEntry)
  /-- SEL.DISP -/
  | dispEntry (e : DispEntry)
  /-- PACK and the EMIT family: the appended bytes; RDOUT: the bytes read -/
  | bytes (bs : List Byte)
  /-- RDLEN -/
  | length (n : Nat)
  /-- RDSTAT -/
  | status (w : Byte)
deriving DecidableEq, Repr

/-- The status of a response (rule R64). -/
inductive Status where
  | ok
  | fault
  | refused
deriving DecidableEq, Repr

/-- A response (rule R64). An OK response carries its value, a FAULT or REFUSED one its cause. -/
inductive Response where
  | ok (value : Value)
  | fault (cause : Cause)
  | refused (cause : Cause)
deriving DecidableEq, Repr

/-- `OUT` as memory: the pairs of an index and the byte there, in the canonical form `Memory.wf`. -/
abbrev Memory := List Host.Cell

/-- The state of one instance of the block. -/
structure State where
  /-- `OUT` (rule R10). `LEN` is the number of its bytes (rule R11). -/
  out : Memory
  /-- `FAULT` (rule R12) -/
  fault : Bool
  /-- `CAUSE` (rule R12) -/
  cause : Cause
  /-- The commands the host has yet to issue, in order: the model's own field (log 2). -/
  commands : List Command
  /-- The response to the last command, none before the first: the model's own field (log 3). -/
  response : Option Response
deriving DecidableEq, Repr

/-- Why the machine stops with a fault: never. "No behaviour of this block is `stuck`" (spec/93
Part 1); what the spec calls a fault is a next state with `FAULT` set (rule R204), made by
`raiseFault`. So no one raises a `Fault`, and the type has no constructor (log 9). -/
inductive Fault where
deriving DecidableEq, Repr

/-- Why an instruction has no meaning. -/
inductive Refusal where
  /-- An instruction not modelled yet; raised by no arm of `exec` now. Safe. -/
  | notModelled (mnemonic : String)
  /-- An EMIT record whose operands do not fit its slots: "an ill-typed command that the command type
  does not admit" (rule R90; rule R170). Raised by `execEmit` and, where decoding rejects the record,
  by `rejectCommand`. Safe (log 4). -/
  | illTypedCommand
deriving DecidableEq, Repr

/-- The state after reset (rules R24, R241); the host has issued nothing (logs 2, 3). -/
def State.reset : State where
  out := []
  fault := false
  cause := .noFault
  commands := []
  response := none

end Sys2Proof.Machine
end

