-- ==== Sys2Proof/Machine/Flags.lean ====
section
/-! DEFINITION. The block has no flags and no condition codes (rule R16). Its only status bits are
`FAULT` and `CAUSE`; this file gives the code of each cause (rule R200) and the STATUS word
(rule R17). -/

namespace Sys2Proof.Machine

/-- The 5-bit cause codes of rule R200. -/
def Cause.code : Cause → BitVec 5
  | .noFault => 0#5
  | .regRange => 1#5
  | .regWidth => 2#5
  | .pairInvalid => 3#5
  | .pairRange => 4#5
  | .immRange => 5#5
  | .soffRange => 6#5
  | .fixedMismatch => 7#5
  | .deltaOdd => 8#5
  | .absOdd => 9#5
  | .offsetRange => 10#5
  | .modeInvalid => 11#5
  | .designatorMismatch => 12#5
  | .widthMismatch => 13#5
  | .templateWidth => 14#5
  | .templateChar => 15#5
  | .badCommand => 16#5

/-- STATUS = `{0b00, CAUSE[4:0], FAULT}` (rules R17, R181). -/
def statusWord (s : State) : Byte :=
  0#2 ++ (s.cause.code ++ BitVec.ofBool s.fault)

/-- The status of a response (rule R64). -/
def Response.status : Response → Status
  | .ok _ => .ok
  | .fault _ => .fault
  | .refused _ => .refused

/-- The cause of a response: the spec gives an OK response none (rule R64; log 3). -/
def Response.cause? : Response → Option Cause
  | .ok _ => none
  | .fault c => some c
  | .refused c => some c

/-- The value of a response, absent from a FAULT or REFUSED one (rule R64). -/
def Response.value? : Response → Option Value
  | .ok v => some v
  | .fault _ => none
  | .refused _ => none

end Sys2Proof.Machine
end

