-- ==== Sys2Proof/Machine/Ops.lean ====
section
/-! DEFINITION. The named operations over `OUT`, the fault record and the host interface. Taking a
fault is `raiseFault` (rule R204), the only way back from one is `resetBlock` (rules R178, R206),
and the refusal of commands in the faulted state is `attempt` (rule R205). -/

namespace Sys2Proof.Machine

/-- The three outcomes of a step of this machine. -/
abbrev Result := Host.Outcome State Fault Refusal

/-- What an index of `OUT` that no byte has been appended at reads as: no value (log 5). -/
def Memory.unlisted (_ : Nat) : Option Byte := none

/-- The byte at index `a` of `OUT`. -/
def Memory.read? (m : Memory) (a : Nat) : Option Byte :=
  match m.find? (fun c => c.1 == a) with
  | some c => some c.2
  | none => Memory.unlisted a

/-- The cells of the bytes `bs` laid from index `start` upward. -/
def Memory.cells (start : Nat) : List Byte → Memory
  | [] => []
  | b :: bs => (start, b) :: Memory.cells (start + 1) bs

/-- `Append(bytes)` (rule R30): the only write to `OUT`, at index `LEN` upward. -/
def Memory.append (m : Memory) (bs : List Byte) : Memory :=
  m ++ Memory.cells m.length bs

/-- `MemRead` for RDOUT (rule R180): `[ OUT[i] : addr <= i < min(addr + n, LEN) ]`. -/
def Memory.readRange (m : Memory) (addr n : Nat) : List Byte :=
  (List.range' addr (min (addr + n) m.length - addr)).filterMap m.read?

/-- The canonical form: the indices are 0, 1, 2, … in this order, so `OUT` is a sequence (rule R10). -/
def Memory.wf (m : Memory) : Bool :=
  m.map Prod.fst == List.range m.length

/-- `LEN` = `|OUT|` (rule R11). -/
def State.len (s : State) : Nat := s.out.length

/-- `s` with the response `r` (rule R64). -/
def State.respond (s : State) (r : Response) : State :=
  { s with response := some r }

/-- `raise Fault(c)` (rule R204): `OUT` and `LEN` as they were, `FAULT <- 1`, `CAUSE <- c`, response
`(FAULT, c, none)`; control goes nowhere (rule R212). -/
def raiseFault (c : Cause) (s : State) : State :=
  { s with fault := true, cause := c, response := some (.fault c) }

/-- The response of the faulted state (rule R205): nothing changes; the stored `CAUSE` is repeated. -/
def refuseFaulted (s : State) : State :=
  s.respond (.refused s.cause)

/-- RESET (rules R178, R206): the only exit from the faulted state. -/
def resetBlock (s : State) : State :=
  { s with out := [], fault := false, cause := .noFault }

/-- `OUT` grown by `bs` (rule R30). -/
def State.append (s : State) (bs : List Byte) : State :=
  { s with out := s.out.append bs }

/-- A command that the faulted state refuses (rule R205), before anything else is examined
(rule R203). -/
def attempt (s : State) (body : Result) : Result :=
  if s.fault then .next (refuseFaulted s) else body

/-- The end of a command that changes no state: its value, or its fault (rules R64, R204). -/
def deliver (s : State) : Except Cause Value → State
  | .ok v => s.respond (.ok v)
  | .error c => raiseFault c s

/-- The end of a command that appends: the bytes go to `OUT` and into the response, or it faults and
appends nothing (rules R127, R177, R204). -/
def deliverBytes (s : State) : Except Cause (List Byte) → State
  | .ok bs => (s.append bs).respond (.ok (.bytes bs))
  | .error c => raiseFault c s

/-- A pure command (rule R62, families 0, 1, 2 and SEL). -/
def pureCommand (s : State) (r : Except Cause Value) : Result :=
  attempt s (.next (deliver s r))

/-- An appending command (PACK and the EMIT family). -/
def appendCommand (s : State) (r : Except Cause (List Byte)) : Result :=
  attempt s (.next (deliverBytes s r))

/-- A control command that only reads: accepted in every state (rules R179 to R181, R205). -/
def readCommand (s : State) (v : Value) : Result :=
  .next (s.respond (.ok v))

/-- The next command the host issues, taken from the commands it has yet to issue (log 2). -/
def fetch (s : State) : Option (Command × State) :=
  match s.commands with
  | [] => none
  | c :: rest => some (c, { s with commands := rest })

/-- The state in which the host issues `c` next. -/
def placeCommand (c : Command) (s : State) : State :=
  { s with commands := c :: s.commands }

/-- No command is issued: the block is idle and holds its state (rule R218; log 7). -/
def idle (s : State) : Result := .next s

/-- A record that is no command. A reserved selector is refused in the faulted state and faults
BAD_COMMAND otherwise (rules R63, R203, R205); an ill-typed EMIT is no command of the command type
(rule R90; log 4). -/
def rejectCommand (e : DecodeError) (s : State) : Result :=
  match e with
  | .reservedSelector _ => attempt s (.next (raiseFault .badCommand s))
  | .illTypedOperands => attempt s (.refused .illTypedCommand)

end Sys2Proof.Machine
end

