-- ==== Sys2Proof/Machine/Operands.lean ====
section
/-! DEFINITION. Operand values turned into field patterns: the validity predicates of rules R80 to
R82 and the operand encoder of rules R100 to R110. All arithmetic is on natural numbers or integers
of unbounded size (rule R112). -/

namespace Sys2Proof.Machine

/-- `require c else Fault(x)` (rule R7). -/
def require (c : Bool) (x : Cause) : Except Cause Unit :=
  if c then .ok () else .error x

/-- `valid_reg` (rule R80). -/
def validReg (r : Register) : Bool :=
  decide (r.id.toNat ≤ Config.maxRegId)

/-- The shape of a pair: `high.id = low.id + 1` and `low.id` even (rules R14, R81). -/
def pairShape (p : RegisterPair) : Bool :=
  decide (p.high.id.toNat = p.low.id.toNat + 1) && decide (p.low.id.toNat % 2 = 0)

/-- `valid_pair` (rule R81). -/
def validPair (p : RegisterPair) : Bool :=
  validReg p.high && validReg p.low && pairShape p

/-- `index_of` (rule R82), over the parameters. -/
def indexOf (P : Config.Params) (p : RegisterPair) : Option IndexName :=
  if p = P.idx .A then some .A
  else if p = P.idx .B then some .B
  else if p = P.idx .C then some .C
  else none

/-- `field_bits(v, N) = v mod 2^N` with the non-negative remainder (rules R6, R101). -/
def fieldBits (v : Int) (n : Nat) : Nat :=
  (v % 2 ^ n).toNat

/-- ENC.REG5 (rule R102). -/
def encReg5 (r : Register) : Except Cause Nat := do
  require (decide (r.id.toNat ≤ 31)) .regRange
  return r.id.toNat

/-- ENC.REG4 (rule R103). -/
def encReg4 (r : Register) : Except Cause Nat := do
  require (decide (16 ≤ r.id.toNat ∧ r.id.toNat ≤ 31)) .regRange
  return r.id.toNat &&& 0xF

/-- ENC.REG3 (rule R104). -/
def encReg3 (r : Register) : Except Cause Nat := do
  require (decide (16 ≤ r.id.toNat ∧ r.id.toNat ≤ 23)) .regRange
  return r.id.toNat &&& 0x7

/-- ENC.REG10, the split layout (rule R105; the shift count is 5: conflict C1, D13). -/
def encReg10 (r : Register) : Except Cause Nat := do
  require (decide (r.id.toNat ≤ 31)) .regRange
  return ((r.id.toNat &&& 16) <<< 5) ||| (r.id.toNat <<< 4) ||| (r.id.toNat &&& 0xF)

/-- A plain register at the width `n` of its field: only 5, 4, 3 and 10 have a rule (rule R110). -/
def encReg (n : Nat) (r : Register) : Except Cause Nat :=
  if n = 5 then encReg5 r
  else if n = 4 then encReg4 r
  else if n = 3 then encReg3 r
  else if n = 10 then encReg10 r
  else .error .regWidth

/-- ENC.PAIR (rule R106): the integer result `low.id / 2`. -/
def encPair (p : RegisterPair) (n : Nat) : Except Cause Nat := do
  require (validReg p.high && validReg p.low) .regRange
  require (pairShape p) .pairInvalid
  require (decide ((32 : Int) - 2 * 2 ^ n ≤ (p.low.id.toNat : Int))) .pairRange
  return p.low.id.toNat / 2

/-- ENC.UIMM (rule R107): validated, never truncated (conflict C7). -/
def encUimm (v : Nat) (n : Nat) : Except Cause Nat := do
  require (decide (v < 2 ^ n)) .immRange
  return v

/-- ENC.SOFF (rule R108): two's complement at width `n`. -/
def encSoff (v : I32) (n : Nat) : Except Cause Nat := do
  require (decide (-(2 : Int) ^ (n - 1) ≤ v.toInt ∧ v.toInt < (2 : Int) ^ (n - 1))) .soffRange
  return fieldBits v.toInt n

/-- ENC.FIXED (rule R109): no pattern, no designator. -/
def encFixed (P : Config.Params) (p : RegisterPair) : Except Cause Unit :=
  require (decide (p = P.fixedPair)) .fixedMismatch

end Sys2Proof.Machine
end

