-- ==== Sys2Proof/Machine/Tables.lean ====
section
/-! DEFINITION. The defaults of the OPEN parameters (rule R5, rules R158 and R159), which the spec
marks "from general knowledge, not in source" (log 6), as one `Config.Params`. -/

namespace Sys2Proof.Machine

/-- The designator `d`. -/
def letterD : Letter := ⟨false, 3⟩

/-- The designator `q`. -/
def letterQ : Letter := ⟨false, 16⟩

/-- The designator `r`. -/
def letterR : Letter := ⟨false, 17⟩

/-- The pair `r<high>:r<low>`. -/
def pairOf (high low : Nat) : RegisterPair :=
  ⟨⟨BitVec.ofNat 8 high⟩, ⟨BitVec.ofNat 8 low⟩⟩

/-- Default `IDX` (rule R5, D20). -/
def defaultIdx : IndexName → RegisterPair
  | .A => pairOf 27 26
  | .B => pairOf 29 28
  | .C => pairOf 31 30

/-- Default `MODE_TABLE` (rule R158). -/
def defaultModeTable : AccessClass → IndexName → ModeTag → Option ModeEntry
  | .load, .A, .plain => some ⟨"1001 000d dddd 1100", letterD⟩
  | .load, .A, .postInc => some ⟨"1001 000d dddd 1101", letterD⟩
  | .load, .A, .preDec => some ⟨"1001 000d dddd 1110", letterD⟩
  | .load, .B, .plain => some ⟨"1000 000d dddd 1000", letterD⟩
  | .load, .B, .postInc => some ⟨"1001 000d dddd 1001", letterD⟩
  | .load, .B, .preDec => some ⟨"1001 000d dddd 1010", letterD⟩
  | .load, .C, .plain => some ⟨"1000 000d dddd 0000", letterD⟩
  | .load, .C, .postInc => some ⟨"1001 000d dddd 0001", letterD⟩
  | .load, .C, .preDec => some ⟨"1001 000d dddd 0010", letterD⟩
  | .store, .A, .plain => some ⟨"1001 001r rrrr 1100", letterR⟩
  | .store, .A, .postInc => some ⟨"1001 001r rrrr 1101", letterR⟩
  | .store, .A, .preDec => some ⟨"1001 001r rrrr 1110", letterR⟩
  | .store, .B, .plain => some ⟨"1000 001r rrrr 1000", letterR⟩
  | .store, .B, .postInc => some ⟨"1001 001r rrrr 1001", letterR⟩
  | .store, .B, .preDec => some ⟨"1001 001r rrrr 1010", letterR⟩
  | .store, .C, .plain => some ⟨"1000 001r rrrr 0000", letterR⟩
  | .store, .C, .postInc => some ⟨"1001 001r rrrr 0001", letterR⟩
  | .store, .C, .preDec => some ⟨"1001 001r rrrr 0010", letterR⟩
  | .pmread, .A, .plain => none
  | .pmread, .A, .postInc => none
  | .pmread, .A, .preDec => none
  | .pmread, .B, .plain => none
  | .pmread, .B, .postInc => none
  | .pmread, .B, .preDec => none
  | .pmread, .C, .plain => some ⟨"1001 000d dddd 0100", letterD⟩
  | .pmread, .C, .postInc => some ⟨"1001 000d dddd 0101", letterD⟩
  | .pmread, .C, .preDec => none

/-- Default `DISP_TABLE` (rule R159). -/
def defaultDispTable : AccessClass → IndexName → Option DispEntry
  | .load, .A => none
  | .load, .B => some ⟨"10q0 qq0d dddd 1qqq", letterD, letterQ⟩
  | .load, .C => some ⟨"10q0 qq0d dddd 0qqq", letterD, letterQ⟩
  | .store, .A => none
  | .store, .B => some ⟨"10q0 qq1r rrrr 1qqq", letterR, letterQ⟩
  | .store, .C => some ⟨"10q0 qq1r rrrr 0qqq", letterR, letterQ⟩
  | .pmread, .A => none
  | .pmread, .B => none
  | .pmread, .C => none

/-- The parameters `exec` uses: the defaults of rule R5 (D20 to D23). -/
def params : Config.Params where
  idx := defaultIdx
  fixedPair := defaultIdx .C
  dispPairs := [.B, .C]
  modeTable := defaultModeTable
  dispTable := defaultDispTable

end Sys2Proof.Machine
end

