-- ==== Sys2Proof/Machine/AddressingModes.lean ====
section
/-! DEFINITION. The addressing-mode dispatcher (spec/44): SEL.MODE and SEL.DISP, over the parameters.
The pair is checked here and not when the mode is built (rule R151, D25); the mode is the value's
tag and is never inferred (rule R157); nothing is remembered (rule R156). -/

namespace Sys2Proof.Machine

/-- The tag and pair of a mode SEL.MODE takes; none for `Disp` (rule R152). -/
def modeShape : AddressingMode → Option (ModeTag × RegisterPair)
  | .plain p => some (.plain, p)
  | .preDec p => some (.preDec, p)
  | .postInc p => some (.postInc, p)
  | .disp _ _ => none

/-- The pair and displacement of a mode SEL.DISP takes; only `Disp` has them (rule R153). -/
def dispShape : AddressingMode → Option (RegisterPair × Nat)
  | .disp p q => some (p, q)
  | .plain _ => none
  | .preDec _ => none
  | .postInc _ => none

/-- A value that must be there, or MODE_INVALID. -/
def orModeInvalid {α : Type} : Option α → Except Cause α
  | some a => .ok a
  | none => .error .modeInvalid

/-- SEL.MODE (rule R152). -/
def selMode (P : Config.Params) (cls : AccessClass) (am : AddressingMode) : Except Cause ModeEntry := do
  let shape ← orModeInvalid (modeShape am)
  let i ← orModeInvalid (indexOf P shape.2)
  orModeInvalid (P.modeTable cls i shape.1)

/-- SEL.DISP (rule R153): the displacement bound is tested last (rule R203). -/
def selDisp (P : Config.Params) (cls : AccessClass) (am : AddressingMode) : Except Cause DispEntry := do
  let shape ← orModeInvalid (dispShape am)
  let i ← orModeInvalid (indexOf P shape.1)
  require (decide (i ∈ P.dispPairs)) .modeInvalid
  let e ← orModeInvalid (P.dispTable cls i)
  require (decide (shape.2 ≤ Config.dispMax)) .immRange
  return e

/-- SEL.MODE (rule R152). -/
def execSelMode (cls : AccessClass) (am : AddressingMode) (s : State) : Result :=
  pureCommand s ((selMode params cls am).map .modeEntry)

/-- SEL.DISP (rule R153). -/
def execSelDisp (cls : AccessClass) (am : AddressingMode) (s : State) : Result :=
  pureCommand s ((selDisp params cls am).map .dispEntry)

end Sys2Proof.Machine
end

