-- ==== Sys2Proof/Machine/Packer.lean ====
section
/-! DEFINITION. The template language (rules R51 to R55) and the template bit-packer PACK (spec/42).
`packBytes` is the pseudocode of rule R120 up to its `Append`. -/

namespace Sys2Proof.Machine

/-- One item of a template in its structured form (rule R55), spaces removed. -/
inductive Item where
  | lit (b : Bool)
  | field (x : Letter)
deriving DecidableEq, Repr

/-- The designator letter a character is, if it is an ASCII letter (rule R51, D9). -/
def letterOf? (c : Char) : Option Letter :=
  if h : 65 ≤ c.toNat ∧ c.toNat ≤ 90 then some ⟨true, ⟨c.toNat - 65, by omega⟩⟩
  else if h : 97 ≤ c.toNat ∧ c.toNat ≤ 122 then some ⟨false, ⟨c.toNat - 97, by omega⟩⟩
  else none

/-- The item a non-space character is, if it is legal (rule R51). -/
def itemOf? (c : Char) : Option Item :=
  if c = '0' then some (.lit false)
  else if c = '1' then some (.lit true)
  else (letterOf? c).map .field

/-- The items of a template's characters, left to right: spaces are skipped, and an illegal character
anywhere faults (rules R51, R121). -/
def parseChars : List Char → Except Cause (List Item)
  | [] => .ok []
  | c :: cs =>
    if c = ' ' then parseChars cs
    else
      match itemOf? c with
      | none => .error .templateChar
      | some it => (parseChars cs).map (it :: ·)

/-- The structured form of a template (rules R55, R121). -/
def parseTemplate (t : String) : Except Cause (List Item) :=
  parseChars t.toList

/-- `W(x)`: the number of occurrences of a letter (rule R53). -/
def letterCount (items : List Item) (x : Letter) : Nat :=
  items.count (.field x)

/-- The letters of a template, left to right, with repeats. -/
def templateLetters : List Item → List Letter
  | [] => []
  | .lit _ :: its => templateLetters its
  | .field x :: its => x :: templateLetters its

/-- `xs` names no letter twice (rules R58, R122; D11). -/
def noRepeat (xs : List Letter) : Bool :=
  decide xs.Nodup

/-- `xs` names exactly the letters of the template (rules R58, R122). -/
def sameLetters (xs : List Letter) (items : List Item) : Bool :=
  xs.all (fun x => decide (x ∈ templateLetters items)) && (templateLetters items).all (fun x => decide (x ∈ xs))

/-- The letters of an operand list, in its order. -/
def fieldLetters (fields : List PackField) : List Letter :=
  fields.map PackField.letter

/-- The pattern the operand list gives a letter: `rem[x]` before the scan (rule R120 step 2). -/
def patternOf (fields : List PackField) (x : Letter) : Nat :=
  match fields.find? (fun f => decide (f.letter = x)) with
  | some f => f.value
  | none => 0

/-- `rem[x] = rem[x] >> 1` (rule R120 step 2). -/
def popShift (rem : Letter → Nat) (x : Letter) : Letter → Nat :=
  fun y => if y = x then rem y >>> 1 else rem y

/-- Step 2 of rule R120 over the items from right to left: remainders, result so far, position. -/
def scan : List Item → (Letter → Nat) → Nat → Nat → Nat
  | [], _, R, _ => R
  | .lit b :: its, rem, R, pos => scan its rem (R ||| (b.toNat <<< pos)) (pos + 1)
  | .field x :: its, rem, R, pos =>
    scan its (popShift rem x) (R ||| ((rem x &&& 1) <<< pos)) (pos + 1)

/-- The accumulated result `R` of a template and its operand list (rules R52, R53, R123). -/
def accumulate (items : List Item) (fields : List PackField) : Nat :=
  scan items.reverse (patternOf fields) 0 0

/-- The total width test (rules R59, R125; D8): 16 or 32 bits and no other number. -/
def widthOk (total : Nat) : Bool :=
  decide (0 < total) && decide (total % Config.wordBits = 0) &&
    decide (total ≤ Config.wordBits * Config.maxWords)

/-- The words of a result, most significant first (rule R126). -/
def resultWords (R n : Nat) : List Word :=
  (List.range n).map fun w => BitVec.ofNat 16 ((R >>> (16 * (n - 1 - w))) &&& 0xFFFF)

/-- A word's bytes, low byte first (rule R31). -/
def wordBytes (w : Word) : List Byte :=
  [w.extractLsb' 0 8, w.extractLsb' 8 8]

/-- The bytes of a result of `n` words, each word low byte first, in template order (rules R31, R32,
R126). -/
def resultBytes (R n : Nat) : List Byte :=
  (resultWords R n).flatMap wordBytes

/-- PACK up to its `Append` (rule R120): the bytes to append, or the first fault in the order of
rule R203. -/
def packBytes (fields : List PackField) (template : String) : Except Cause (List Byte) := do
  let items ← parseTemplate template
  require (noRepeat (fieldLetters fields)) .designatorMismatch
  require (sameLetters (fieldLetters fields) items) .designatorMismatch
  require (fields.all fun f => decide (f.width = letterCount items f.letter)) .widthMismatch
  require (widthOk items.length) .templateWidth
  return resultBytes (accumulate items fields) (items.length / Config.wordBits)

/-- PACK (rule R120). -/
def execPack (fields : List PackField) (template : String) (s : State) : Result :=
  appendCommand s (packBytes fields template)

end Sys2Proof.Machine
end

