-- ==== Sys2Proof/Machine/Resolver.lean ====
section
/-! DEFINITION. The offset resolver (spec/43): RES.ABS, RES.ABS2, RES.REL. The position `LEN` is an
argument, as rule R144 asks. Sums and differences are made in `ℤ` and never wrap (rule R145); the
formulas are computed as written, units and all (rules R140, R146; conflicts C4, C5). -/

namespace Sys2Proof.Machine

/-- The integer an offset denotes at position `len` (rule R141). -/
def offsetTarget (len : Nat) : Offset → Int
  | .absolute addr => (addr.toNat : Int)
  | .relative d => (len : Int) + d.toInt

/-- `LEN` as it enters the sum that resolves an offset: an absolute one makes no sum (rule R141). -/
def lenInSum (len : Nat) : Offset → Nat
  | .absolute _ => 0
  | .relative _ => len

/-- RES.ABS does not fault: the target is a `u32` (rule R141), and a sum is made from a `LEN` below
2^32 (rule R145, last sentence). DESIGN CHOICE (log 14): at `LEN >= 2^32` with a negative `d` the test
of R141 alone would admit a sum inside `u32`; the model follows R145, by which it always faults. -/
abbrev Resolves (len : Nat) (off : Offset) : Prop :=
  lenInSum len off < 2 ^ 32 ∧ 0 ≤ offsetTarget len off ∧ offsetTarget len off < 2 ^ 32

/-- RES.ABS (rules R141, R145; log 14). -/
def resAbs (len : Nat) (off : Offset) : Except Cause U32 := do
  require (decide (Resolves len off)) .offsetRange
  return BitVec.ofInt 32 (offsetTarget len off)

/-- RES.ABS2 (rule R142): it halves (conflict C8). -/
def resAbs2 (len : Nat) (off : Offset) : Except Cause U32 := do
  let a ← resAbs len off
  require (decide (a.toNat % 2 = 0)) .absOdd
  return BitVec.ofNat 32 (a.toNat / 2)

/-- RES.REL (rule R143): a difference that is not halved (conflict C4). -/
def resRel (len : Nat) (off : Offset) : Except Cause I32 := do
  let a ← resAbs len off
  require (decide (-2 ^ 31 ≤ (a.toNat : Int) - len ∧ (a.toNat : Int) - len < 2 ^ 31)) .offsetRange
  return BitVec.ofInt 32 ((a.toNat : Int) - len)

/-- RES.ABS (rules R141, R145). -/
def execResAbs (off : Offset) (s : State) : Result :=
  pureCommand s ((resAbs s.len off).map .u32)

/-- RES.ABS2 (rule R142). -/
def execResAbs2 (off : Offset) (s : State) : Result :=
  pureCommand s ((resAbs2 s.len off).map .u32)

/-- RES.REL (rule R143). -/
def execResRel (off : Offset) (s : State) : Result :=
  pureCommand s ((resRel s.len off).map .i32)

end Sys2Proof.Machine
end

