-- ==== Sys2Proof/Machine/Composite.lean ====
section
/-! DEFINITION. The composite encode commands (spec/45): EMIT, EMIT.MODE, EMIT.DISP, as compositions
of the resolver, the operand encoder, the dispatcher and the packer (rule R173). -/

namespace Sys2Proof.Machine

/-- The designator of a slot, if it has one (rules R65, R170 part B). -/
def slotLetter? : TypedSlot → Option Letter
  | .reg x _ => some x
  | .pair x _ => some x
  | .uimm x _ => some x
  | .simm x _ => some x
  | .rel x _ => some x
  | .abs2 x _ => some x
  | .fixed _ => none

/-- `D`, the designators of the slots that have one, in slot order (rule R170 part B). -/
def slotLetters (slots : List TypedSlot) : List Letter :=
  slots.filterMap slotLetter?

/-- The operand-list triple of a slot whose pattern is `p` (rule R170 part C: `N = W(x)`). -/
def fieldAt (w : Letter → Nat) (x : Letter) (p : Nat) : List PackField :=
  [⟨x, p, w x⟩]

/-- What EMIT does with one slot (rules R65, R147, R170 part C, R171): the resolver before the
encoder, at the width the template gives; a FIXED slot gives no field (rules R109, R176). -/
def encodeSlot (P : Config.Params) (len : Nat) (w : Letter → Nat) : TypedSlot → Except Cause (List PackField)
  | .reg x r => (encReg (w x) r).map (fieldAt w x)
  | .pair x p => (encPair p (w x)).map fun (v : Nat) => fieldAt w x (fieldBits (v : Int) (w x))
  | .uimm x v => (encUimm v (w x)).map (fieldAt w x)
  | .simm x v => (encSoff v (w x)).map (fieldAt w x)
  | .rel x o => do
    let r ← resRel len o
    (encSoff r (w x)).map (fieldAt w x)
  | .abs2 x o => do
    let a ← resAbs2 len o
    (encUimm a.toNat (w x)).map (fieldAt w x)
  | .fixed p => (encFixed P p).map fun _ => []

/-- Part C of rule R170: the slots in catalog order, all against the same `LEN` (rule R172). -/
def encodeSlots (P : Config.Params) (len : Nat) (w : Letter → Nat) : List TypedSlot → Except Cause (List PackField)
  | [] => .ok []
  | sl :: slots => do
    let f ← encodeSlot P len w sl
    let fs ← encodeSlots P len w slots
    return f ++ fs

/-- Parts A to C of rule R170: the operand list EMIT hands to PACK. -/
def emitFields (P : Config.Params) (len : Nat) (slots : List TypedSlot) (template : String) :
    Except Cause (List PackField) := do
  let items ← parseTemplate template
  require (noRepeat (slotLetters slots)) .designatorMismatch
  require (sameLetters (slotLetters slots) items) .designatorMismatch
  encodeSlots P len (letterCount items) slots

/-- EMIT up to its `Append` (rule R170). -/
def emitBytes (P : Config.Params) (len : Nat) (slots : List TypedSlot) (template : String) :
    Except Cause (List Byte) := do
  let fields ← emitFields P len slots template
  packBytes fields template

/-- EMIT.MODE up to its `Append` (rule R174): the selection first, then EMIT with one REG slot. -/
def emitModeBytes (P : Config.Params) (len : Nat) (cls : AccessClass) (reg : Register) (am : AddressingMode) :
    Except Cause (List Byte) := do
  let e ← selMode P cls am
  emitBytes P len [.reg e.regLetter reg] e.template

/-- The displacement a mode carries (rule R175 `am.q`). -/
def dispOf : AddressingMode → Nat
  | .disp _ q => q
  | .plain _ => 0
  | .preDec _ => 0
  | .postInc _ => 0

/-- EMIT.DISP up to its `Append` (rule R175): the selection first, then EMIT with a REG and a UIMM slot. -/
def emitDispBytes (P : Config.Params) (len : Nat) (cls : AccessClass) (reg : Register) (am : AddressingMode) :
    Except Cause (List Byte) := do
  let e ← selDisp P cls am
  emitBytes P len [.reg e.regLetter reg, .uimm e.dispLetter (dispOf am)] e.template

/-- EMIT (rule R170). Operands that do not fit the slots are no command of its type (rule R90; log 4). -/
def execEmit (entry : CatalogEntry) (operands : List Operand) (s : State) : Result :=
  match bindSlots entry.slots operands with
  | some slots => appendCommand s (emitBytes params s.len slots entry.template)
  | none => attempt s (.refused .illTypedCommand)

/-- EMIT.MODE (rule R174). -/
def execEmitMode (cls : AccessClass) (reg : Register) (am : AddressingMode) (s : State) : Result :=
  appendCommand s (emitModeBytes params s.len cls reg am)

/-- EMIT.DISP (rule R175). -/
def execEmitDisp (cls : AccessClass) (reg : Register) (am : AddressingMode) (s : State) : Result :=
  appendCommand s (emitDispBytes params s.len cls reg am)

end Sys2Proof.Machine
end

