-- ==== Sys2Proof/Machine/Control.lean ====
section
/-! DEFINITION. The control commands (spec/45 section 3): RESET, RDLEN, RDOUT, RDSTAT. All four are
accepted in every state (rule R205), and none faults. -/

namespace Sys2Proof.Machine

/-- RESET (rule R178). -/
def execReset (s : State) : Result :=
  .next ((resetBlock s).respond (.ok .nothing))

/-- RDLEN (rule R179). -/
def execRdlen (s : State) : Result :=
  readCommand s (.length s.len)

/-- RDOUT (rule R180). -/
def execRdout (addr n : Nat) (s : State) : Result :=
  readCommand s (.bytes (s.out.readRange addr n))

/-- RDSTAT (rule R181). -/
def execRdstat (s : State) : Result :=
  readCommand s (.status (statusWord s))

end Sys2Proof.Machine
end

