-- ==== Sys2Proof/Machine/OperandEncoder.lean ====
section
/-! DEFINITION. The operand encoder's commands (spec/41): ENC.REG5, ENC.REG4, ENC.REG3, ENC.REG10,
ENC.PAIR, ENC.UIMM, ENC.SOFF, ENC.FIXED. All are pure; the arithmetic is Machine/Operands.lean. -/

namespace Sys2Proof.Machine

/-- An integer result and the width it was asked at (rule R56 "operand bit pattern"). -/
def patternValue (n : Nat) (v : Nat) : Value := .pattern v n

/-- ENC.REG5 (rule R102). -/
def execEncReg5 (reg : Register) (s : State) : Result :=
  pureCommand s ((encReg5 reg).map (patternValue 5))

/-- ENC.REG4 (rule R103). -/
def execEncReg4 (reg : Register) (s : State) : Result :=
  pureCommand s ((encReg4 reg).map (patternValue 4))

/-- ENC.REG3 (rule R104). -/
def execEncReg3 (reg : Register) (s : State) : Result :=
  pureCommand s ((encReg3 reg).map (patternValue 3))

/-- ENC.REG10 (rule R105). -/
def execEncReg10 (reg : Register) (s : State) : Result :=
  pureCommand s ((encReg10 reg).map (patternValue 10))

/-- ENC.PAIR (rule R106). -/
def execEncPair (pair : RegisterPair) (n : Width) (s : State) : Result :=
  pureCommand s ((encPair pair n.bits).map (patternValue n.bits))

/-- ENC.UIMM (rule R107). -/
def execEncUimm (v : Nat) (n : Width) (s : State) : Result :=
  pureCommand s ((encUimm v n.bits).map (patternValue n.bits))

/-- ENC.SOFF (rule R108). -/
def execEncSoff (v : I32) (n : Width) (s : State) : Result :=
  pureCommand s ((encSoff v n.bits).map (patternValue n.bits))

/-- ENC.FIXED (rule R109). -/
def execEncFixed (pair : RegisterPair) (s : State) : Result :=
  pureCommand s ((encFixed params pair).map fun _ => .nothing)

end Sys2Proof.Machine
end

