-- ==== Sys2Proof/Machine/OperandModel.lean ====
section
/-! DEFINITION. The operand model (spec/40): OFF.ABS, OFF.REL, AM.PLAIN, AM.PREDEC, AM.POSTINC,
AM.DISP. All are pure. -/

namespace Sys2Proof.Machine

/-- OFF.REL's value (rule R84): the byte delta must be even, and is stored halved. -/
def offRel (bytes : I32) : Except Cause Offset := do
  require (decide (bytes.toInt % 2 = 0)) .deltaOdd
  return .relative (BitVec.ofInt 32 (bytes.toInt / 2))

/-- OFF.ABS (rule R83): every `u32` is accepted. -/
def execOffAbs (addr : U32) (s : State) : Result :=
  pureCommand s (.ok (.offset (.absolute addr)))

/-- OFF.REL (rule R84). -/
def execOffRel (bytes : I32) (s : State) : Result :=
  pureCommand s ((offRel bytes).map .offset)

/-- AM.PLAIN (rule R85): the pair is checked at dispatch, not here (D25). -/
def execAmPlain (pair : RegisterPair) (s : State) : Result :=
  pureCommand s (.ok (.mode (.plain pair)))

/-- AM.PREDEC (rule R86). -/
def execAmPreDec (pair : RegisterPair) (s : State) : Result :=
  pureCommand s (.ok (.mode (.preDec pair)))

/-- AM.POSTINC (rule R87). -/
def execAmPostInc (pair : RegisterPair) (s : State) : Result :=
  pureCommand s (.ok (.mode (.postInc pair)))

/-- AM.DISP (rule R88): `q` and the pair are checked at dispatch (D25, D26). -/
def execAmDisp (pair : RegisterPair) (q : Nat) (s : State) : Result :=
  pureCommand s (.ok (.mode (.disp pair q)))

end Sys2Proof.Machine
end

