-- ==== Sys2Proof/Machine/Dispatch.lean ====
section
/-! DEFINITION. One arm per operation of spec/opcode_table.json. -/

namespace Sys2Proof.Machine

def exec (i : Instr) (s : State) : Host.Outcome State Fault Refusal :=
  match i with
  | .offAbs addr => Sys2Proof.Machine.execOffAbs addr s
  | .offRel bytes => Sys2Proof.Machine.execOffRel bytes s
  | .amPlain pair => Sys2Proof.Machine.execAmPlain pair s
  | .amPreDec pair => Sys2Proof.Machine.execAmPreDec pair s
  | .amPostInc pair => Sys2Proof.Machine.execAmPostInc pair s
  | .amDisp pair q => Sys2Proof.Machine.execAmDisp pair q s
  | .encReg5 reg => Sys2Proof.Machine.execEncReg5 reg s
  | .encReg4 reg => Sys2Proof.Machine.execEncReg4 reg s
  | .encReg3 reg => Sys2Proof.Machine.execEncReg3 reg s
  | .encReg10 reg => Sys2Proof.Machine.execEncReg10 reg s
  | .encPair pair n => Sys2Proof.Machine.execEncPair pair n s
  | .encUimm v n => Sys2Proof.Machine.execEncUimm v n s
  | .encSoff v n => Sys2Proof.Machine.execEncSoff v n s
  | .encFixed pair => Sys2Proof.Machine.execEncFixed pair s
  | .resAbs off => Sys2Proof.Machine.execResAbs off s
  | .resAbs2 off => Sys2Proof.Machine.execResAbs2 off s
  | .resRel off => Sys2Proof.Machine.execResRel off s
  | .pack fields template => Sys2Proof.Machine.execPack fields template s
  | .selMode cls am => Sys2Proof.Machine.execSelMode cls am s
  | .selDisp cls am => Sys2Proof.Machine.execSelDisp cls am s
  | .emit entry operands => Sys2Proof.Machine.execEmit entry operands s
  | .emitMode cls reg am => Sys2Proof.Machine.execEmitMode cls reg am s
  | .emitDisp cls reg am => Sys2Proof.Machine.execEmitDisp cls reg am s
  | .reset => Sys2Proof.Machine.execReset s
  | .rdlen => Sys2Proof.Machine.execRdlen s
  | .rdout addr n => Sys2Proof.Machine.execRdout addr n s
  | .rdstat => Sys2Proof.Machine.execRdstat s

end Sys2Proof.Machine
end

