-- ==== Sys2Proof/Machine/Step.lean ====
section
/-! DEFINITION. One step is one command (rule R37): the next command the host issues is taken,
decoded and executed; with no command the block is idle. -/

namespace Sys2Proof.Machine

/-- One step. -/
def step (s : State) : Host.Outcome State Fault Refusal :=
  match fetch s with
  | none => idle s
  | some (c, s') =>
    match decode c with
    | .ok i => exec i s'
    | .error e => rejectCommand e s'

/-- The state in which the very next command is the one of selector `w` and operands zero. A table
row has 8 bits, so `nbits` places nothing more (log 12). -/
def State.withFetchWord (s : State) (_nbits w : Nat) : State :=
  placeCommand (tableCommand w) s

end Sys2Proof.Machine
end

