-- ==== Sys2Proof/Laws/State.lean ====
section
/-! SUPPORT. One lemma per field per update of State, so that no proof unfolds a record update. -/

namespace Sys2Proof.Machine

variable (s : State) (r : Response) (c : Cause) (bs : List Byte) (k : Command)

@[simp] theorem respond_out : (s.respond r).out = s.out := rfl
@[simp] theorem respond_fault : (s.respond r).fault = s.fault := rfl
@[simp] theorem respond_cause : (s.respond r).cause = s.cause := rfl
@[simp] theorem respond_commands : (s.respond r).commands = s.commands := rfl
@[simp] theorem respond_response : (s.respond r).response = some r := rfl
@[simp] theorem respond_len : (s.respond r).len = s.len := rfl

@[simp] theorem raiseFault_out : (raiseFault c s).out = s.out := rfl
@[simp] theorem raiseFault_fault : (raiseFault c s).fault = true := rfl
@[simp] theorem raiseFault_cause : (raiseFault c s).cause = c := rfl
@[simp] theorem raiseFault_commands : (raiseFault c s).commands = s.commands := rfl
@[simp] theorem raiseFault_response : (raiseFault c s).response = some (.fault c) := rfl
@[simp] theorem raiseFault_len : (raiseFault c s).len = s.len := rfl

@[simp] theorem refuseFaulted_out : (refuseFaulted s).out = s.out := rfl
@[simp] theorem refuseFaulted_fault : (refuseFaulted s).fault = s.fault := rfl
@[simp] theorem refuseFaulted_cause : (refuseFaulted s).cause = s.cause := rfl
@[simp] theorem refuseFaulted_commands : (refuseFaulted s).commands = s.commands := rfl
@[simp] theorem refuseFaulted_response : (refuseFaulted s).response = some (.refused s.cause) := rfl
@[simp] theorem refuseFaulted_len : (refuseFaulted s).len = s.len := rfl

@[simp] theorem resetBlock_out : (resetBlock s).out = [] := rfl
@[simp] theorem resetBlock_fault : (resetBlock s).fault = false := rfl
@[simp] theorem resetBlock_cause : (resetBlock s).cause = .noFault := rfl
@[simp] theorem resetBlock_commands : (resetBlock s).commands = s.commands := rfl
@[simp] theorem resetBlock_response : (resetBlock s).response = s.response := rfl
@[simp] theorem resetBlock_len : (resetBlock s).len = 0 := rfl

@[simp] theorem append_out : (s.append bs).out = s.out.append bs := rfl
@[simp] theorem append_fault : (s.append bs).fault = s.fault := rfl
@[simp] theorem append_cause : (s.append bs).cause = s.cause := rfl
@[simp] theorem append_commands : (s.append bs).commands = s.commands := rfl
@[simp] theorem append_response : (s.append bs).response = s.response := rfl

@[simp] theorem placeCommand_out : (placeCommand k s).out = s.out := rfl
@[simp] theorem placeCommand_fault : (placeCommand k s).fault = s.fault := rfl
@[simp] theorem placeCommand_cause : (placeCommand k s).cause = s.cause := rfl
@[simp] theorem placeCommand_commands : (placeCommand k s).commands = k :: s.commands := rfl
@[simp] theorem placeCommand_response : (placeCommand k s).response = s.response := rfl

/-- A placed command is the one fetched, and the state is as before it was placed. -/
@[simp] theorem fetch_placeCommand : fetch (placeCommand k s) = some (k, s) := rfl

end Sys2Proof.Machine
end

