-- ==== Sys2Proof/Laws/Memory.lean ====
section
/-! SUPPORT. `OUT` as memory: what an append leaves alone, what it stores, and that every memory
operation (append and RESET's emptying) keeps the canonical form. -/

namespace Sys2Proof.Machine

@[simp] theorem cells_length (start : Nat) (bs : List Byte) :
    (Memory.cells start bs).length = bs.length := by
  induction bs generalizing start with
  | nil => rfl
  | cons b bs ih => simp [Memory.cells, ih]

@[simp] theorem cells_map_fst (start : Nat) (bs : List Byte) :
    (Memory.cells start bs).map Prod.fst = List.range' start bs.length := by
  induction bs generalizing start with
  | nil => rfl
  | cons b bs ih => simp [Memory.cells, ih, List.range'_succ]

@[simp] theorem cells_map_snd (start : Nat) (bs : List Byte) :
    (Memory.cells start bs).map Prod.snd = bs := by
  induction bs generalizing start with
  | nil => rfl
  | cons b bs ih => simp [Memory.cells, ih]

@[simp] theorem memory_append_length (m : Memory) (bs : List Byte) :
    (m.append bs).length = m.length + bs.length := by
  simp [Memory.append]

@[simp] theorem append_len (s : State) (bs : List Byte) :
    (s.append bs).len = s.len + bs.length := by
  simp [State.len]

/-- The bytes of `OUT` after an append are the old ones and then the new ones. -/
theorem memory_append_map_snd (m : Memory) (bs : List Byte) :
    (m.append bs).map Prod.snd = m.map Prod.snd ++ bs := by
  simp [Memory.append]

theorem memory_wf_iff (m : Memory) : m.wf = true ↔ m.map Prod.fst = List.range m.length := by
  simp [Memory.wf]

/-- The canonical form lists its indices strictly rising. -/
theorem memory_wf_rising (m : Memory) (h : m.wf = true) :
    (m.map Prod.fst).Pairwise (· < ·) := by
  rw [(memory_wf_iff m).mp h]
  exact List.pairwise_lt_range

/-- The empty memory, that of reset and of RESET, is canonical. -/
theorem memory_nil_wf : Memory.wf [] = true := rfl

/-- An append keeps the canonical form. -/
theorem memory_append_wf (m : Memory) (bs : List Byte) (h : m.wf = true) :
    (m.append bs).wf = true := by
  rw [memory_wf_iff] at h ⊢
  simp only [Memory.append, List.map_append, List.length_append, h, cells_map_fst, cells_length]
  rw [List.range_eq_range', List.range_eq_range', ← List.range'_append_1]
  simp

theorem cells_find?_outside (start a : Nat) (bs : List Byte)
    (h : a < start ∨ start + bs.length ≤ a) :
    (Memory.cells start bs).find? (fun c => c.1 == a) = none := by
  induction bs generalizing start with
  | nil => rfl
  | cons b bs ih =>
    simp only [List.length_cons] at h
    have hne : (start == a) = false := by simp; omega
    simp only [Memory.cells, List.find?_cons, hne]
    exact ih (start + 1) (by omega)

/-- An append leaves every byte outside `LEN .. LEN + |bs| - 1` as it was. -/
theorem read?_append_outside (m : Memory) (bs : List Byte) (a : Nat)
    (h : a < m.length ∨ m.length + bs.length ≤ a) :
    (m.append bs).read? a = m.read? a := by
  simp only [Memory.read?, Memory.append, List.find?_append,
    cells_find?_outside m.length a bs h, Option.or_none]

theorem cells_find?_inside (start k : Nat) (bs : List Byte) (h : k < bs.length) :
    (Memory.cells start bs).find? (fun c => c.1 == start + k) = some (start + k, bs[k]) := by
  induction bs generalizing start k with
  | nil => simp at h
  | cons b bs ih =>
    cases k with
    | zero => simp [Memory.cells]
    | succ k =>
      have := ih (start + 1) k (by simpa using h)
      simp only [Memory.cells, List.find?_cons]
      have hne : (start == start + (k + 1)) = false := by simp
      rw [hne]
      simpa [Nat.add_assoc, Nat.add_comm 1 k] using this

theorem find?_none_of_wf (m : Memory) (h : m.wf = true) (a : Nat) (ha : m.length ≤ a) :
    m.find? (fun c => c.1 == a) = none := by
  rw [List.find?_eq_none]
  intro c hc hca
  have hmem : c.1 ∈ m.map Prod.fst := List.mem_map_of_mem hc
  rw [(memory_wf_iff m).mp h, List.mem_range] at hmem
  simp at hca
  omega

/-- An append to a canonical memory is read back. -/
theorem read?_append_inside (m : Memory) (bs : List Byte) (k : Nat) (hw : m.wf = true)
    (h : k < bs.length) : (m.append bs).read? (m.length + k) = some bs[k] := by
  simp only [Memory.read?, Memory.append, List.find?_append,
    find?_none_of_wf m hw (m.length + k) (by omega), Option.none_or,
    cells_find?_inside m.length k bs h]

/-- A canonical memory holds no byte at or above `LEN`. -/
theorem read?_of_length_le (m : Memory) (hw : m.wf = true) (a : Nat) (ha : m.length ≤ a) :
    m.read? a = none := by
  simp [Memory.read?, find?_none_of_wf m hw a ha, Memory.unlisted]

end Sys2Proof.Machine
end

