-- ==== Sys2Proof/Safety.lean ====
section
/-! DEFINITION. The terms claims are stated in: the outcomes a rule gives a command, written out field
by field; the invariant of rule R25; what each operation may raise (rule R201); the per-kind table of
rule R57 as arithmetic; validated entries and parameters (rules R155, R242); the unpack aid of
spec/95 section 3; the end of a run (rule R244). Nothing here is used by the machine. -/

namespace Sys2Proof.Safety

open Sys2Proof.Machine

/-- The command is OK with value `v` and changes nothing but the response. -/
def answers (s : State) (v : Value) : Result :=
  .next { s with response := some (.ok v) }

/-- The command faults with cause `c` (rule R204 (b) to (d)). -/
def faults (s : State) (c : Cause) : Result :=
  .next { s with fault := true, cause := c, response := some (.fault c) }

/-- The command is refused (rule R205). -/
def refuses (s : State) : Result :=
  .next { s with response := some (.refused s.cause) }

/-- The command is OK and appends `bs` at `LEN` (rules R30, R177). -/
def appends (s : State) (bs : List Byte) : Result :=
  .next { s with out := s.out ++ Memory.cells s.len bs, response := some (.ok (.bytes bs)) }

/-- The invariant of rule R25: `OUT` is a sequence (so that `LEN = |OUT|` means its length), `LEN` is
even, and `CAUSE = 0` exactly when `FAULT = 0`. -/
abbrev Inv (s : State) : Prop :=
  s.out.wf = true ∧ s.len % 2 = 0 ∧ (s.cause = .noFault ↔ s.fault = false)

/-- The four commands the faulted state accepts (rule R205). -/
def isControl : Instr → Bool
  | .reset => true
  | .rdlen => true
  | .rdout _ _ => true
  | .rdstat => true
  | _ => false

/-- The commands that append (rule R30). -/
def isAppending : Instr → Bool
  | .pack _ _ => true
  | .emit _ _ => true
  | .emitMode _ _ _ => true
  | .emitDisp _ _ _ => true
  | _ => false

/-- The template an appending command packs with (rules R31, R120, R171, R174, R175): PACK's and
EMIT's own, the selected entry's of EMIT.MODE and EMIT.DISP; none where the selection faults. -/
def templateOf? : Instr → Option String
  | .pack _ template => some template
  | .emit entry _ => some entry.template
  | .emitMode cls _ am => (selMode params cls am).toOption.map (·.template)
  | .emitDisp cls _ am => (selDisp params cls am).toOption.map (·.template)
  | _ => none

/-- The bytes a command stores, by the expression its meaning uses; none where it faults. -/
def storedBytes (i : Instr) (s : State) : List Byte :=
  match i with
  | .pack fields template => (packBytes fields template).toOption.getD []
  | .emit entry operands =>
    match bindSlots entry.slots operands with
    | some slots => (emitBytes params s.len slots entry.template).toOption.getD []
    | none => []
  | .emitMode cls reg am => (emitModeBytes params s.len cls reg am).toOption.getD []
  | .emitDisp cls reg am => (emitDispBytes params s.len cls reg am).toOption.getD []
  | _ => []

/-- The causes an EMIT with the given slot causes can raise (rule R201). -/
def emitCauses (slotCauses : List Cause) : List Cause :=
  [.templateChar, .designatorMismatch, .templateWidth] ++ slotCauses

/-- The matrix of rule R201. -/
def mayRaise : Instr → List Cause
  | .offAbs _ => []
  | .offRel _ => [.deltaOdd]
  | .amPlain _ => []
  | .amPreDec _ => []
  | .amPostInc _ => []
  | .amDisp _ _ => []
  | .encReg5 _ => [.regRange]
  | .encReg4 _ => [.regRange]
  | .encReg3 _ => [.regRange]
  | .encReg10 _ => [.regRange]
  | .encPair _ _ => [.regRange, .pairInvalid, .pairRange]
  | .encUimm _ _ => [.immRange]
  | .encSoff _ _ => [.soffRange]
  | .encFixed _ => [.fixedMismatch]
  | .resAbs _ => [.offsetRange]
  | .resAbs2 _ => [.offsetRange, .absOdd]
  | .resRel _ => [.offsetRange]
  | .pack _ _ => [.templateChar, .designatorMismatch, .widthMismatch, .templateWidth]
  | .selMode _ _ => [.modeInvalid]
  | .selDisp _ _ => [.modeInvalid, .immRange]
  | .emit _ _ =>
    emitCauses [.regRange, .regWidth, .pairInvalid, .pairRange, .immRange, .soffRange, .fixedMismatch,
      .absOdd, .offsetRange]
  | .emitMode _ _ _ => .modeInvalid :: emitCauses [.regRange, .regWidth]
  | .emitDisp _ _ _ => .modeInvalid :: .immRange :: emitCauses [.regRange, .regWidth]
  | .reset => []
  | .rdlen => []
  | .rdout _ _ => []
  | .rdstat => []

/-- A character that is legal in a template (rule R51): `0`, `1`, space or an ASCII letter. -/
def legalChar (c : Char) : Prop :=
  c = '0' ∨ c = '1' ∨ c = ' ' ∨ (65 ≤ c.toNat ∧ c.toNat ≤ 90) ∨ (97 ≤ c.toNat ∧ c.toNat ≤ 122)

/-- The letters `xs` are those of the items and none is named twice (rules R58, R122). -/
def lettersMatch (xs : List Letter) (items : List Item) : Prop :=
  xs.Nodup ∧ ∀ x, x ∈ xs ↔ Item.field x ∈ items

/-- The field triple of a plain register at the width of its letter (rule R57, rows 1 to 4). -/
def regField? (x : Letter) (n id : Nat) : Option PackField :=
  if n = 5 ∧ id ≤ 31 then some ⟨x, id, 5⟩
  else if n = 4 ∧ 16 ≤ id ∧ id ≤ 31 then some ⟨x, id - 16, 4⟩
  else if n = 3 ∧ 16 ≤ id ∧ id ≤ 23 then some ⟨x, id - 16, 3⟩
  else if n = 10 ∧ id ≤ 31 then some ⟨x, (id / 16) * 512 + id * 16 + id % 16, 10⟩
  else none

/-- The field triple of a signed integer at width `n` (rule R57, row signed integer). -/
def signedField? (x : Letter) (n : Nat) (v : Int) : Option PackField :=
  if -(2 : Int) ^ n ≤ 2 * v ∧ 2 * v < (2 : Int) ^ n then
    some ⟨x, if 0 ≤ v then v.toNat else (v + (2 : Int) ^ n).toNat, n⟩
  else none

/-- The table of rule R57 with the slot kinds of rule R65, as arithmetic: the triples a slot gives
PACK at position `len` with letter widths `w`, or nothing where a condition of the table fails. -/
def slotFields? (P : Config.Params) (len : Nat) (w : Letter → Nat) : TypedSlot → Option (List PackField)
  | .reg x r => (regField? x (w x) r.id.toNat).map fun f => [f]
  | .pair x p =>
    if p.high.id.toNat ≤ 31 ∧ p.low.id.toNat % 2 = 0 ∧ p.high.id.toNat = p.low.id.toNat + 1 ∧
        32 ≤ p.low.id.toNat + 2 * 2 ^ w x then
      some [⟨x, p.low.id.toNat / 2 % 2 ^ w x, w x⟩]
    else none
  | .uimm x v => if v < 2 ^ w x then some [⟨x, v, w x⟩] else none
  | .simm x v => (signedField? x (w x) v.toInt).map fun f => [f]
  | .rel x o =>
    if Resolves len o ∧ -2 ^ 31 ≤ offsetTarget len o - len ∧ offsetTarget len o - len < 2 ^ 31 then
      (signedField? x (w x) (offsetTarget len o - len)).map fun f => [f]
    else none
  | .abs2 x o =>
    if Resolves len o ∧ offsetTarget len o % 2 = 0 ∧ offsetTarget len o / 2 < 2 ^ w x then
      some [⟨x, (offsetTarget len o / 2).toNat, w x⟩]
    else none
  | .fixed p => if p = P.fixedPair then some [] else none

/-- The cause a slot faults with where a condition of that table fails (rules R200 and R203: the
resolver's conditions before the encoder's, a register field's width before its range). -/
def slotCause (len : Nat) (w : Letter → Nat) : TypedSlot → Cause
  | .reg x _ => if w x ∈ [3, 4, 5, 10] then .regRange else .regWidth
  | .pair _ p =>
    if 31 < p.high.id.toNat ∨ 31 < p.low.id.toNat then .regRange
    else if p.high.id.toNat ≠ p.low.id.toNat + 1 ∨ p.low.id.toNat % 2 ≠ 0 then .pairInvalid
    else .pairRange
  | .uimm _ _ => .immRange
  | .simm _ _ => .soffRange
  | .rel _ o =>
    if Resolves len o ∧ -2 ^ 31 ≤ offsetTarget len o - len ∧ offsetTarget len o - len < 2 ^ 31 then .soffRange
    else .offsetRange
  | .abs2 _ o =>
    if ¬ Resolves len o then .offsetRange
    else if offsetTarget len o % 2 ≠ 0 then .absOdd
    else .immRange
  | .fixed _ => .fixedMismatch

/-- The triples of all slots, in catalog order. -/
def allFields? (P : Config.Params) (len : Nat) (w : Letter → Nat) : List TypedSlot → Option (List PackField)
  | [] => some []
  | sl :: slots =>
    match slotFields? P len w sl, allFields? P len w slots with
    | some f, some fs => some (f ++ fs)
    | _, _ => none

/-- An entry's slots and template are pre-validated (rule R242 (c)). -/
def validated (slots : List TypedSlot) (template : String) : Prop :=
  ∃ items, parseTemplate template = .ok items ∧ (items.length = 16 ∨ items.length = 32) ∧
    lettersMatch (slotLetters slots) items ∧
    ∀ x r, TypedSlot.reg x r ∈ slots →
      letterCount items x = 3 ∨ letterCount items x = 4 ∨ letterCount items x = 5 ∨ letterCount items x = 10

/-- A table's template is acceptable (rule R155): its letters are exactly `xs`, it has 16 or 32
items, and its register letter has a width a plain register can take. -/
def templateOk (template : String) (reg : Letter) (xs : List Letter) : Bool :=
  match parseTemplate template with
  | .error _ => false
  | .ok items =>
    noRepeat xs && sameLetters xs items && widthOk items.length &&
      decide (letterCount items reg ∈ [3, 4, 5, 10])

/-- All classes, index pairs and mode tags. -/
def allClasses : List AccessClass := [.load, .store, .pmread]
/-- All index pairs by name. -/
def allIndexes : List IndexName := [.A, .B, .C]
/-- All mode tags. -/
def allTags : List ModeTag := [.plain, .preDec, .postInc]

/-- The parameters are right (rule R242 (a) and (b), rule R155). -/
def paramsOk (P : Config.Params) : Bool :=
  allIndexes.all (fun i => validPair (P.idx i)) &&
  decide (P.idx .A ≠ P.idx .B ∧ P.idx .A ≠ P.idx .C ∧ P.idx .B ≠ P.idx .C) &&
  allIndexes.any (fun i => decide (P.fixedPair = P.idx i)) &&
  decide (P.dispPairs.Nodup ∧ P.dispPairs.length = 2) &&
  allClasses.all (fun c => allIndexes.all fun i => allTags.all fun tag =>
    match P.modeTable c i tag with
    | none => true
    | some e => templateOk e.template e.regLetter [e.regLetter]) &&
  allClasses.all (fun c => allIndexes.all fun i =>
    match P.dispTable c i with
    | none => true
    | some e => templateOk e.template e.regLetter [e.regLetter, e.dispLetter])

/-- The mode value of a tag and a pair. -/
def modeOf : ModeTag → RegisterPair → AddressingMode
  | .plain, p => .plain p
  | .preDec, p => .preDec p
  | .postInc, p => .postInc p

/-- The bits of letter `x` collected from `R`, right to left: items from the right, bit index, number
of occurrences so far, pattern so far (spec/95 section 3, `unpack`). -/
def collect (x : Letter) : List Item → Nat → Nat → Nat → Nat → Nat
  | [], _, _, _, f => f
  | .lit _ :: its, R, i, cnt, f => collect x its R (i + 1) cnt f
  | .field y :: its, R, i, cnt, f =>
    if y = x then collect x its R (i + 1) (cnt + 1) (f ||| ((R.testBit i).toNat <<< cnt))
    else collect x its R (i + 1) cnt f

/-- `unpack(R, template)[x]` (spec/95 section 3). -/
def unpack (items : List Item) (R : Nat) (x : Letter) : Nat :=
  collect x items.reverse R 0 0 0

/-- The literal bits of `R` are the template's, items from the right (spec/95 section 3). -/
def literalsAgree : List Item → Nat → Nat → Bool
  | [], _, _ => true
  | .lit b :: its, R, i => (R.testBit i == b) && literalsAgree its R (i + 1)
  | .field _ :: its, R, i => literalsAgree its R (i + 1)

/-- The accumulated result read back from appended bytes: `(word0 << 16) | word1` for two words, each
word `byte1 << 8 | byte0` (spec/95 section 3). -/
def resultOf : List Byte → Nat
  | [b0, b1] => (b1.toNat <<< 8) ||| b0.toNat
  | [b0, b1, b2, b3] =>
    (((b1.toNat <<< 8) ||| b0.toNat) <<< 16) ||| ((b3.toNat <<< 8) ||| b2.toNat)
  | _ => 0

/-- The last command returned OK. -/
def okResponse (s : State) : Bool :=
  match s.response with
  | some (.ok _) => true
  | _ => false

/-- `k` steps, if none of them stops the machine. -/
def runFor : Nat → State → Option State
  | 0, s => some s
  | k + 1, s =>
    match step s with
    | .next t => runFor k t
    | .fault _ => none
    | .refused _ => none

/-- `k` commands, each of which returned OK (rule R244). -/
def okRun : Nat → State → Option State
  | 0, s => some s
  | k + 1, s =>
    match step s with
    | .next t => if okResponse t then okRun k t else none
    | .fault _ => none
    | .refused _ => none

/-- The run of the commands `cs` from reset has ended well (rule R244). -/
def endedWell (cs : List Command) : Bool :=
  match okRun cs.length { State.reset with commands := cs } with
  | some t => !t.fault
  | none => false

/-- A run has ended badly in `s` (rule R244). -/
def endedBadly (s : State) : Bool := s.fault

/-- The 27 selector codes of rule R62. -/
def tableSelectors : List Byte :=
  [0x00#8, 0x01#8, 0x02#8, 0x03#8, 0x04#8, 0x05#8,
   0x10#8, 0x11#8, 0x12#8, 0x13#8, 0x14#8, 0x15#8, 0x16#8, 0x17#8,
   0x20#8, 0x21#8, 0x22#8, 0x30#8, 0x40#8, 0x41#8, 0x48#8, 0x49#8, 0x4A#8,
   0x70#8, 0x71#8, 0x72#8, 0x73#8]

end Sys2Proof.Safety
end

