-- ==== Sys2Proof/Certificates/Slice0/Obligations.lean ====
section
/-! DEFINITION. The statements for the provers, family by family, from the numbered rules of spec/.
`answers`, `faults`, `refuses` and `appends` (Safety.lean) write each outcome out field by field. -/

open Sys2Proof Sys2Proof.Machine Sys2Proof.Safety

/-! ## State and reset -/

/-- Rules R24 and R241: the state after reset; and that the first command is whatever the host issues
first, in terms of the model's list of commands (log 2). -/
def Obligations.ResetStateIsFresh : Prop :=
  State.reset.out = [] ∧ State.reset.len = 0 ∧ State.reset.fault = false ∧ State.reset.cause = .noFault ∧
  ∀ c : Command, fetch (placeCommand c State.reset) = some (c, State.reset)

/-- Rule R178: RESET gives the reset values in every state, faulted or not, and faults in none;
`RDLEN` after it returns 0. -/
def Obligations.ResetCommandGivesResetState : Prop :=
  (encode .reset).op = 0x70#8 ∧
  ∀ s : State, ∃ t, exec .reset s = .next t ∧
    t = { s with out := [], fault := false, cause := .noFault, response := some (.ok .nothing) } ∧
    exec .rdlen t = answers t (.length 0)

/-- The invariant of rule R25 holds at reset (derived: the spec marks (b) and (c) as its inferences). -/
def Obligations.ResetMeetsInvariant : Prop := Inv State.reset

/-- Rule R25 (a) to (c), from every state that meets it: `OUT` stays a sequence, `LEN` stays even, and
`CAUSE = 0` stays equivalent to `FAULT = 0`, whatever command or record comes next. -/
def Obligations.StepKeepsInvariant : Prop :=
  ∀ s t : State, Inv s → step s = .next t → Inv t

/-- Rules R10 and R37 (c): while the host issues no RESET, a run of any length from any state keeps
`OUT` as a prefix, so a byte once appended never changes. -/
def Obligations.OutputOnlyGrowsAlongRuns : Prop :=
  ∀ (k : Nat) (s t : State), (∀ c ∈ s.commands, c.op ≠ 0x70#8) →
    runFor k s = some t →
    s.out <+: t.out ∧ ∀ a b, s.out.read? a = some b → t.out.read? a = some b

/-- Rule R10: for every command but RESET, `OUT` before is a prefix of `OUT` after. -/
def Obligations.OutputIsAppendOnly : Prop :=
  ∀ (i : Instr) (s t : State), i ≠ .reset → exec i s = .next t → s.out <+: t.out

/-- Rule R10, last sentence: the contents of `OUT` reach no response but RDOUT's: two states that
differ only in `OUT`'s contents (equal length) answer every other command alike, with the same
response, `FAULT` and `CAUSE`, and the same number of bytes appended. -/
def Obligations.OnlyReadOutSeesContents : Prop :=
  ∀ (i : Instr) (s s' t t' : State), (∀ addr n, i ≠ .rdout addr n) →
    s.len = s'.len → s.fault = s'.fault → s.cause = s'.cause →
    exec i s = .next t → exec i s' = .next t' →
    t.response = t'.response ∧ t.fault = t'.fault ∧ t.cause = t'.cause ∧ t.len = t'.len

/-! ## Steps, decoding, encoding -/

/-- One step runs the decoded instruction: the next command is taken from the host's list (log 2) and
executed in the state without it; nothing else happens around `exec`. With no command to issue the
block is idle and holds its state (rule R218; log 7). -/
def Obligations.StepRunsDecoded : Prop :=
  (∀ (s : State) (c : Command) (rest : List Command) (i : Instr),
    s.commands = c :: rest → decode c = .ok i →
    step s = exec i { s with commands := rest }) ∧
  ∀ s : State, s.commands = [] → step s = .next s

/-- Rule R63: every selector outside the 27 of rule R62 is reserved; such a command, whatever its
operands, faults BAD_COMMAND and changes nothing else. -/
def Obligations.ReservedSelectorFaults : Prop :=
  ∀ (s : State) (c : Command) (rest : List Command),
    c.op ∉ tableSelectors → s.commands = c :: rest → s.fault = false →
    decode c = .error (.reservedSelector c.op) ∧
    step s = faults { s with commands := rest } .badCommand

/-- Decode and encode agree: an encoded well-formed operation decodes to itself with every operand at
every value, and whatever decodes is well-formed, keeps its selector when encoded again, and decodes
to the same operation again. Only a reserved selector or an ill-typed EMIT decodes to nothing. -/
def Obligations.DecodeEncodeAgree : Prop :=
  (∀ i : Instr, i.wf = true → decode (encode i) = .ok i) ∧
  (∀ (c : Command) (i : Instr), decode c = .ok i →
    i.wf = true ∧ (encode i).op = c.op ∧ decode (encode i) = .ok i) ∧
  (∀ (c : Command) (e : DecodeError), decode c = .error e →
    (e = .reservedSelector c.op ∧ c.op ∉ tableSelectors) ∨
    (e = .illTypedOperands ∧ c.op = 0x48#8 ∧ bindSlots c.args.entry.slots c.args.operands = none))

/-- Rule R62 on one written-out record per family: selector and operands to the operation. -/
def Obligations.SampleRecordsDecode : Prop :=
  decode ⟨0x01#8, { OperandRecord.zero with bytes := BitVec.ofInt 32 (-6) }⟩ = .ok (.offRel (BitVec.ofInt 32 (-6))) ∧
  decode ⟨0x14#8, { OperandRecord.zero with pair := pairOf 25 24, width := ⟨1⟩ }⟩ = .ok (.encPair (pairOf 25 24) ⟨1⟩) ∧
  decode ⟨0x22#8, { OperandRecord.zero with offset := .absolute 6#32 }⟩ = .ok (.resRel (.absolute 6#32)) ∧
  decode ⟨0x30#8, { OperandRecord.zero with template := "1010 1011 1100 1101" }⟩ = .ok (.pack [] "1010 1011 1100 1101") ∧
  decode ⟨0x41#8, { OperandRecord.zero with cls := .store, mode := .disp (pairOf 29 28) 5 }⟩
    = .ok (.selDisp .store (.disp (pairOf 29 28) 5)) ∧
  decode ⟨0x49#8, { OperandRecord.zero with cls := .pmread, reg := ⟨16#8⟩, mode := .postInc (pairOf 31 30) }⟩
    = .ok (.emitMode .pmread ⟨16#8⟩ (.postInc (pairOf 31 30))) ∧
  decode ⟨0x72#8, { OperandRecord.zero with start := 2, count := 100 }⟩ = .ok (.rdout 2 100)

/-- Every command of the command type is answered with a next state, in every state, faulted or not:
the machine never stops (rules R64, R251). The host's later commands stay as they are. Only a term
that is no command, an EMIT whose operands do not fit its slots (rules R90, R170), has no meaning, and
that only with no fault recorded (log 4). -/
def Obligations.EveryCommandAnswers : Prop :=
  ∀ (i : Instr) (s : State),
    (i.wf = true → ∃ t r, exec i s = .next t ∧ t.response = some r ∧ t.commands = s.commands) ∧
    (i.wf = false → s.fault = false → exec i s = .refused .illTypedCommand)

/-- Rule R64 with rule R205: what a response tells. FAULT: the command raised a fault in this
invocation, and the cause is its code. REFUSED: `FAULT` was already 1, and the cause repeats the stored
`CAUSE`. Neither carries a value; every other response is OK. -/
def Obligations.ResponseTellsWhatHappened : Prop :=
  ∀ (i : Instr) (s t : State), exec i s = .next t → ∃ r, t.response = some r ∧
    (r.status = .fault ↔ s.fault = false ∧ t.fault = true) ∧
    (r.status = .refused ↔ s.fault = true ∧ isControl i = false) ∧
    (r.status = .fault → r.cause? = some t.cause ∧ r.value? = none) ∧
    (r.status = .refused → r.cause? = some s.cause ∧ r.value? = none) ∧
    (r.status = .ok → r.value? ≠ none)

/-! ## Faults -/

/-- Rule R204: a command that faults, and a record that is no command, leaves `OUT` and `LEN` as they
were, sets `FAULT`, writes a non-zero cause to `CAUSE`, and its response is a FAULT with that cause;
nothing else changes, so control goes nowhere. -/
def Obligations.FaultEntryTouchesOnlyTheFaultRecord : Prop :=
  (∀ (i : Instr) (s t : State), s.fault = false → exec i s = .next t → t.fault = true →
    t.cause ≠ .noFault ∧
    t = { s with fault := true, cause := t.cause, response := some (.fault t.cause) }) ∧
  (∀ (e : DecodeError) (s t : State), s.fault = false → rejectCommand e s = .next t →
    t = { s with fault := true, cause := .badCommand, response := some (.fault .badCommand) })

/-- Rule R205: while `FAULT` = 1 every command but RESET, RDLEN, RDOUT and RDSTAT is refused: no state
changes and the response repeats the stored `CAUSE`. So is a record that is no command: a reserved
selector by rule R203 (REFUSED before anything is examined), and an EMIT whose operands do not fit its
slots, as a term and as a record, by the model's inference from R203, R252, R90 and R170 (DEDUCED,
log 4). -/
def Obligations.FaultedStateRefuses : Prop :=
  (∀ (i : Instr) (s : State), s.fault = true → isControl i = false → exec i s = refuses s) ∧
  (∀ (e : DecodeError) (s : State), s.fault = true → rejectCommand e s = refuses s)

/-- Rule R206: only RESET leaves the faulted state; every other command, and every record that is no
command, keeps `FAULT`, the first `CAUSE` and `OUT`. -/
def Obligations.OnlyResetLeavesTheFaultedState : Prop :=
  ∀ s t : State, s.fault = true → step s = .next t →
    (t.fault = true ∧ t.cause = s.cause ∧ t.out = s.out) ∨
    (∃ c rest, s.commands = c :: rest ∧ decode c = .ok .reset ∧ t.fault = false ∧ t.out = [])

/-- The matrix of rule R201: which cause each operation can record. -/
def Obligations.FaultMatrix : Prop :=
  ∀ (i : Instr) (s t : State), s.fault = false → exec i s = .next t → t.fault = true →
    t.cause ∈ mayRaise i

/-- The codes of rule R200: 0 for no fault and 1 to 16 in the table's order, all different. -/
def Obligations.CauseCodes : Prop :=
  [Cause.noFault, .regRange, .regWidth, .pairInvalid, .pairRange, .immRange, .soffRange, .fixedMismatch,
    .deltaOdd, .absOdd, .offsetRange, .modeInvalid, .designatorMismatch, .widthMismatch, .templateWidth,
    .templateChar, .badCommand].map (fun c => c.code.toNat) = List.range 17 ∧
  ∀ c d : Cause, c.code = d.code → c = d

/-- Rule R244 (derived): a run in which every command returned OK ends with `FAULT` = 0, from any
state with `FAULT` = 0; so a run from reset has ended well exactly when every command returned OK. -/
def Obligations.OkRunsEndUnfaulted : Prop :=
  (∀ (k : Nat) (s t : State), s.fault = false → okRun k s = some t → t.fault = false ∧ endedBadly t = false) ∧
  (∀ cs : List Command, endedWell cs = true ↔
    ∃ t, okRun cs.length { State.reset with commands := cs } = some t)

/-! ## Frames -/

/-- The commands that append nothing, RESET apart (families 0, 1, 2, SEL and the three read-outs):
every byte of `OUT`, `LEN` and the host's commands are unchanged, and so are `FAULT` and `CAUSE`
unless the command faults in a state with no fault recorded. -/
def Obligations.NonAppendingFrame : Prop :=
  ∀ (i : Instr) (s t : State), isAppending i = false → i ≠ .reset → exec i s = .next t →
    (∀ a, t.out.read? a = s.out.read? a) ∧ t.len = s.len ∧ t.commands = s.commands ∧
    ((t.fault = s.fault ∧ t.cause = s.cause) ∨
      (s.fault = false ∧ t.fault = true ∧ t.response = some (.fault t.cause)))

/-- The commands that append (PACK, EMIT, EMIT.MODE, EMIT.DISP), with no fault recorded: the bytes
stored start at `LEN` and are those the command's own expression gives, none or two or four of them;
every byte of `OUT` outside them reads as before; `LEN` grows by their number; the host's commands
stay; `FAULT` and `CAUSE` change only where the command faults. -/
def Obligations.AppendingFrame : Prop :=
  ∀ (i : Instr) (s t : State), isAppending i = true → s.fault = false → exec i s = .next t →
    (∀ a, a < s.len ∨ s.len + (storedBytes i s).length ≤ a → t.out.read? a = s.out.read? a) ∧
    t.len = s.len + (storedBytes i s).length ∧
    (storedBytes i s).length ∈ [0, 2, 4] ∧
    t.commands = s.commands ∧
    ((t.fault = s.fault ∧ t.cause = s.cause ∧ t.response = some (.ok (.bytes (storedBytes i s)))) ∨
      (t.fault = true ∧ storedBytes i s = [] ∧ t.response = some (.fault t.cause)))

/-- Rule R177: after a successful encode command with an `n`-word template (its `16 * n` non-space
characters, one or two words) `LEN` is `2 * n` larger, the new bytes are at the old `LEN` upward, all
earlier bytes are unchanged, `FAULT` is still 0, and the response's value is the list of appended
bytes. -/
def Obligations.SuccessfulAppendEffect : Prop :=
  ∀ (i : Instr) (s t : State), isAppending i = true → Inv s → s.fault = false →
    exec i s = .next t → t.fault = false →
    ∃ (template : String) (items : List Item) (n : Nat) (bs : List Byte),
      templateOf? i = some template ∧ parseTemplate template = .ok items ∧
      items.length = 16 * n ∧ (n = 1 ∨ n = 2) ∧
      bs.length = 2 * n ∧ t.len = s.len + 2 * n ∧
      t.response = some (.ok (.bytes bs)) ∧
      (∀ k : Nat, k < 2 * n → t.out.read? (s.len + k) = bs[k]?) ∧
      (∀ a, a < s.len → t.out.read? a = s.out.read? a)

/-! ## Operand model -/

/-- Rule R83: OFF.ABS accepts every `u32`. -/
def Obligations.OffsetAbsoluteAcceptsAll : Prop :=
  ∀ (addr : U32) (s : State), s.fault = false →
    (encode (.offAbs addr)).op = 0x00#8 ∧
    exec (.offAbs addr) s = answers s (.offset (.absolute addr))

/-- Rule R84: OFF.REL halves an even byte delta exactly, also a negative one, and faults DELTA_ODD on
an odd one. -/
def Obligations.OffsetRelativeHalvesEvenDeltas : Prop :=
  ∀ (bytes : I32) (s : State), s.fault = false →
    (encode (.offRel bytes)).op = 0x01#8 ∧
    (bytes.toInt % 2 = 0 → ∃ d : I32, 2 * d.toInt = bytes.toInt ∧
      exec (.offRel bytes) s = answers s (.offset (.relative d))) ∧
    (bytes.toInt % 2 ≠ 0 → exec (.offRel bytes) s = faults s .deltaOdd)

/-- Rules R85 to R88: the four mode constructors return their mode for every pair and displacement,
valid or not; none faults. -/
def Obligations.ModeConstructorsNeverFault : Prop :=
  ∀ (pair : RegisterPair) (q : Nat) (s : State), s.fault = false →
    (encode (.amPlain pair)).op = 0x02#8 ∧ (encode (.amPreDec pair)).op = 0x03#8 ∧
    (encode (.amPostInc pair)).op = 0x04#8 ∧ (encode (.amDisp pair q)).op = 0x05#8 ∧
    exec (.amPlain pair) s = answers s (.mode (.plain pair)) ∧
    exec (.amPreDec pair) s = answers s (.mode (.preDec pair)) ∧
    exec (.amPostInc pair) s = answers s (.mode (.postInc pair)) ∧
    exec (.amDisp pair q) s = answers s (.mode (.disp pair q))

/-! ## Operand encoder -/

/-- Rule R102: ENC.REG5. -/
def Obligations.EncodeRegisterFiveBits : Prop :=
  ∀ (reg : Register) (s : State), s.fault = false →
    (encode (.encReg5 reg)).op = 0x10#8 ∧
    (reg.id.toNat ≤ 31 → exec (.encReg5 reg) s = answers s (.pattern reg.id.toNat 5)) ∧
    (32 ≤ reg.id.toNat → exec (.encReg5 reg) s = faults s .regRange)

/-- Rule R103: ENC.REG4: `id & 0xF`, which is `id - 16`, for 16 to 31. -/
def Obligations.EncodeRegisterFourBits : Prop :=
  ∀ (reg : Register) (s : State), s.fault = false →
    (encode (.encReg4 reg)).op = 0x11#8 ∧
    (16 ≤ reg.id.toNat ∧ reg.id.toNat ≤ 31 →
      reg.id.toNat &&& 0xF = reg.id.toNat - 16 ∧
      exec (.encReg4 reg) s = answers s (.pattern (reg.id.toNat &&& 0xF) 4)) ∧
    (reg.id.toNat ≤ 15 ∨ 32 ≤ reg.id.toNat → exec (.encReg4 reg) s = faults s .regRange)

/-- Rule R104: ENC.REG3: `id & 0x7`, which is `id - 16`, for 16 to 23. -/
def Obligations.EncodeRegisterThreeBits : Prop :=
  ∀ (reg : Register) (s : State), s.fault = false →
    (encode (.encReg3 reg)).op = 0x12#8 ∧
    (16 ≤ reg.id.toNat ∧ reg.id.toNat ≤ 23 →
      reg.id.toNat &&& 0x7 = reg.id.toNat - 16 ∧
      exec (.encReg3 reg) s = answers s (.pattern (reg.id.toNat &&& 0x7) 3)) ∧
    (reg.id.toNat ≤ 15 ∨ 24 ≤ reg.id.toNat → exec (.encReg3 reg) s = faults s .regRange)

/-- Rule R105: ENC.REG10, bit by bit: bit 9 is `id[4]`, bits 8:4 are `id[4:0]`, bits 3:0 are
`id[3:0]` (conflict C1: the shift count is 5). -/
def Obligations.EncodeRegisterSplitLayout : Prop :=
  ∀ (reg : Register) (s : State), s.fault = false →
    (encode (.encReg10 reg)).op = 0x13#8 ∧
    (reg.id.toNat ≤ 31 → ∃ p : Nat, p < 2 ^ 10 ∧
      p.testBit 9 = reg.id.toNat.testBit 4 ∧
      (∀ k, k < 5 → p.testBit (4 + k) = reg.id.toNat.testBit k) ∧
      (∀ k, k < 4 → p.testBit k = reg.id.toNat.testBit k) ∧
      exec (.encReg10 reg) s = answers s (.pattern p 10)) ∧
    (32 ≤ reg.id.toNat → exec (.encReg10 reg) s = faults s .regRange)

/-- Rule R106: ENC.PAIR: REG_RANGE, PAIR_INVALID, PAIR_RANGE in that order, else `low.id / 2`; and the
field pattern of that result counts pairs upward from the lowest admitted one for `N <= 4` and is
`low.id / 2` for `N >= 4` (conflict C2). The field pattern's closed form, the last clause, is the
spec's own inference: rule R106 marks it "[derived: from rule R101 and this rule]". -/
def Obligations.EncodePair : Prop :=
  ∀ (p : RegisterPair) (n : Width) (s : State), s.fault = false →
    (encode (.encPair p n)).op = 0x14#8 ∧
    (exec (.encPair p n) s =
      if 31 < p.high.id.toNat ∨ 31 < p.low.id.toNat then faults s .regRange
      else if p.high.id.toNat ≠ p.low.id.toNat + 1 ∨ p.low.id.toNat % 2 ≠ 0 then faults s .pairInvalid
      else if (p.low.id.toNat : Int) < 32 - 2 * 2 ^ n.bits then faults s .pairRange
      else answers s (.pattern (p.low.id.toNat / 2) n.bits)) ∧
    (validPair p = true → (32 : Int) - 2 * 2 ^ n.bits ≤ (p.low.id.toNat : Int) →
      (n.bits ≤ 4 → (fieldBits ((p.low.id.toNat / 2 : Nat) : Int) n.bits : Int) =
        ((p.low.id.toNat : Int) - (32 - 2 * 2 ^ n.bits)) / 2) ∧
      (4 ≤ n.bits → fieldBits ((p.low.id.toNat / 2 : Nat) : Int) n.bits = p.low.id.toNat / 2))

/-- Rule R107: ENC.UIMM validates and never truncates. -/
def Obligations.EncodeUnsignedImmediate : Prop :=
  ∀ (v : Nat) (n : Width) (s : State), s.fault = false →
    (encode (.encUimm v n)).op = 0x15#8 ∧
    (v < 2 ^ n.bits → exec (.encUimm v n) s = answers s (.pattern v n.bits)) ∧
    (2 ^ n.bits ≤ v → exec (.encUimm v n) s = faults s .immRange)

/-- Rule R108: ENC.SOFF: `v` if it is not negative and `v + 2^N` if it is, in range; SOFF_RANGE else. -/
def Obligations.EncodeSignedOffset : Prop :=
  ∀ (v : I32) (n : Width) (s : State), s.fault = false →
    (encode (.encSoff v n)).op = 0x16#8 ∧
    (-(2 : Int) ^ (n.bits - 1) ≤ v.toInt ∧ v.toInt < (2 : Int) ^ (n.bits - 1) →
      ∃ p : Nat, (p : Int) = (if 0 ≤ v.toInt then v.toInt else v.toInt + (2 : Int) ^ n.bits) ∧ p < 2 ^ n.bits ∧
        exec (.encSoff v n) s = answers s (.pattern p n.bits)) ∧
    (v.toInt < -(2 : Int) ^ (n.bits - 1) ∨ (2 : Int) ^ (n.bits - 1) ≤ v.toInt →
      exec (.encSoff v n) s = faults s .soffRange)

/-- Rule R109: ENC.FIXED asserts the parameter `FIXED_PAIR` and emits nothing; any other pair, valid
or not, faults. -/
def Obligations.EncodeFixedPair : Prop :=
  ∀ (p : RegisterPair) (s : State), s.fault = false →
    (encode (.encFixed p)).op = 0x17#8 ∧
    (p = params.fixedPair → exec (.encFixed p) s = answers s .nothing) ∧
    (p ≠ params.fixedPair → exec (.encFixed p) s = faults s .fixedMismatch)

/-! ## Offset resolver -/

/-- Rules R141 and R145: RES.ABS. A `Relative` offset resolves where its sum `LEN + d` is a `u32`, and
faults elsewhere and always at `LEN >= 2^32`. That last case is the last sentence of R145; with a
negative `d` the test of R141 says otherwise, and the model follows R145 (DESIGN CHOICE, log 14). -/
def Obligations.ResolveAbsolute : Prop :=
  ∀ (s : State), s.fault = false →
    (∀ off, (encode (.resAbs off)).op = 0x20#8) ∧
    (∀ addr : U32, exec (.resAbs (.absolute addr)) s = answers s (.u32 addr)) ∧
    (∀ d : I32, s.len < 2 ^ 32 ∧ 0 ≤ (s.len : Int) + d.toInt ∧ (s.len : Int) + d.toInt < 2 ^ 32 →
      ∃ a : U32, (a.toNat : Int) = s.len + d.toInt ∧ exec (.resAbs (.relative d)) s = answers s (.u32 a)) ∧
    (∀ d : I32, 2 ^ 32 ≤ s.len ∨ (s.len : Int) + d.toInt < 0 ∨ 2 ^ 32 ≤ (s.len : Int) + d.toInt →
      exec (.resAbs (.relative d)) s = faults s .offsetRange)

/-- Rules R142 and R145: RES.ABS2 halves RES.ABS's result: OFFSET_RANGE where the inner RES.ABS faults
(which at `LEN >= 2^32` is rule R145's test: DESIGN CHOICE, log 14), then ABS_ODD, else the exact
half. -/
def Obligations.ResolveAbsoluteHalved : Prop :=
  ∀ (off : Offset) (s : State), s.fault = false →
    (encode (.resAbs2 off)).op = 0x21#8 ∧
    (¬ Resolves s.len off → exec (.resAbs2 off) s = faults s .offsetRange) ∧
    (Resolves s.len off → offsetTarget s.len off % 2 ≠ 0 → exec (.resAbs2 off) s = faults s .absOdd) ∧
    (Resolves s.len off → offsetTarget s.len off % 2 = 0 →
      ∃ w : U32, 2 * (w.toNat : Int) = offsetTarget s.len off ∧ w.toNat ≤ 2 ^ 31 - 1 ∧
        exec (.resAbs2 off) s = answers s (.u32 w))

/-- Rules R143 and R145: RES.REL: OFFSET_RANGE from RES.ABS (which at `LEN >= 2^32` is rule R145's
test: DESIGN CHOICE, log 14) or from the difference, else the unhalved difference from `LEN`; for a
`Relative` offset that resolves it is the stored word count, whatever `LEN` is. -/
def Obligations.ResolveRelative : Prop :=
  ∀ (off : Offset) (s : State), s.fault = false →
    (encode (.resRel off)).op = 0x22#8 ∧
    (Resolves s.len off ∧ -2 ^ 31 ≤ offsetTarget s.len off - s.len ∧ offsetTarget s.len off - s.len < 2 ^ 31 →
      ∃ r : I32, r.toInt = offsetTarget s.len off - s.len ∧ exec (.resRel off) s = answers s (.i32 r) ∧
        ∀ d, off = .relative d → r = d) ∧
    (¬ (Resolves s.len off ∧ -2 ^ 31 ≤ offsetTarget s.len off - s.len ∧ offsetTarget s.len off - s.len < 2 ^ 31) →
      exec (.resRel off) s = faults s .offsetRange)

/-! ## Template packer -/

/-- Rule R120 with rules R125 and R126: a well-formed PACK appends the words of `R`, the first word
from its most significant 16 bits, each word low byte first. -/
def Obligations.PackAppendsWords : Prop :=
  ∀ (fields : List PackField) (template : String) (items : List Item) (s : State), s.fault = false →
    parseTemplate template = .ok items → lettersMatch (fieldLetters fields) items →
    (∀ f ∈ fields, f.width = letterCount items f.letter) →
    (items.length = 16 → exec (.pack fields template) s = appends s
      [BitVec.ofNat 8 (accumulate items fields), BitVec.ofNat 8 (accumulate items fields >>> 8)]) ∧
    (items.length = 32 → exec (.pack fields template) s = appends s
      [BitVec.ofNat 8 (accumulate items fields >>> 16), BitVec.ofNat 8 (accumulate items fields >>> 24),
       BitVec.ofNat 8 (accumulate items fields), BitVec.ofNat 8 (accumulate items fields >>> 8)])

/-- Rule R203's order for PACK with rules R121, R122 and R125: illegal character, then letters, then
declared widths, then total width. That a declared width of 0, which the operand type of rule R120
leaves out, can be presented and faults WIDTH_MISMATCH is the model's choice (DESIGN CHOICE, log 8). -/
def Obligations.PackFaultsInOrder : Prop :=
  ∀ (fields : List PackField) (template : String) (s : State), s.fault = false →
    ((∃ c ∈ template.toList, ¬ legalChar c) → exec (.pack fields template) s = faults s .templateChar) ∧
    ∀ items, parseTemplate template = .ok items →
      (¬ lettersMatch (fieldLetters fields) items →
        exec (.pack fields template) s = faults s .designatorMismatch) ∧
      (lettersMatch (fieldLetters fields) items →
        (∃ f ∈ fields, f.width ≠ letterCount items f.letter) →
        exec (.pack fields template) s = faults s .widthMismatch) ∧
      (lettersMatch (fieldLetters fields) items →
        (∀ f ∈ fields, f.width = letterCount items f.letter) →
        items.length ≠ 16 → items.length ≠ 32 →
        exec (.pack fields template) s = faults s .templateWidth)

/-- Rules R51, R52 and R121: `0` and `1` are the literals 0 and 1; every ASCII letter is a designator,
and no two letters, case included, are the same one; a template has a structured form exactly when all
its characters are legal, and then one item per non-space character, in order. -/
def Obligations.TemplateParsesIffLegal : Prop :=
  (itemOf? '0' = some (.lit false) ∧ itemOf? '1' = some (.lit true)) ∧
  (∀ k : Fin 26, itemOf? (Char.ofNat (65 + k)) = some (.field ⟨true, k⟩) ∧
    itemOf? (Char.ofNat (97 + k)) = some (.field ⟨false, k⟩)) ∧
  (∀ (c d : Char) (x y : Letter), itemOf? c = some (.field x) → itemOf? d = some (.field y) →
    c ≠ d → x ≠ y) ∧
  ∀ template : String,
    ((∀ c ∈ template.toList, legalChar c) ↔ ∃ items, parseTemplate template = .ok items) ∧
    ∀ items, parseTemplate template = .ok items →
      items.map some = (template.toList.filter (fun c => c != ' ')).map itemOf?

/-- Rule R123, the closed form of the scan: bit `i` of `R` is the literal at position `i` from the
right, or bit `k` of the letter's pattern, `k` the letter's occurrences strictly to the right; and
`R` has no bit at or above `T`. -/
def Obligations.ScanClosedForm : Prop :=
  ∀ (items : List Item) (fields : List PackField) (i : Nat),
    (accumulate items fields).testBit i =
      match items.reverse[i]? with
      | none => false
      | some (.lit b) => b
      | some (.field x) => (patternOf fields x).testBit ((items.reverse.take i).count (.field x))

/-- Rule R130: what PACK appends, unpacked, gives back every letter's pattern modulo `2^W(x)` and the
literals: no bit of an encoding is dropped, and no byte is out of place. -/
def Obligations.PackRoundTrip : Prop :=
  ∀ (fields : List PackField) (template : String) (items : List Item) (bs : List Byte),
    parseTemplate template = .ok items → packBytes fields template = .ok bs →
    (∀ f ∈ fields, unpack items (resultOf bs) f.letter = f.value % 2 ^ letterCount items f.letter) ∧
    literalsAgree items.reverse (resultOf bs) 0 = true

/-- Rule R128: the result depends on the operand list only as a map and on the template only through
its non-space characters: reordering the triples or moving spaces changes nothing. -/
def Obligations.PackIgnoresOrderAndSpacing : Prop :=
  ∀ (fields fields' : List PackField) (template template' : String) (s : State),
    fields.Perm fields' →
    template.toList.filter (fun c => c != ' ') = template'.toList.filter (fun c => c != ' ') →
    exec (.pack fields template) s = exec (.pack fields' template') s

/-- Rule R124: PACK never reads a pattern's bits at `W(x)` and above, so cutting every pattern to its
declared width changes nothing. -/
def Obligations.PackDropsHighPatternBits : Prop :=
  ∀ (fields : List PackField) (template : String) (s : State),
    exec (.pack fields template) s =
      exec (.pack (fields.map fun f => { f with value := f.value % 2 ^ f.width }) template) s

/-- Rule R129: the bytes PACK appends, or its fault, depend on its operands alone: any two unfaulted
states answer it with the same response and grow by the same cells' bytes. -/
def Obligations.PackDependsOnOperandsOnly : Prop :=
  ∀ (fields : List PackField) (template : String) (s s' : State), s.fault = false → s'.fault = false →
    ∃ t t', exec (.pack fields template) s = .next t ∧ exec (.pack fields template) s' = .next t' ∧
      t.response = t'.response ∧
      ∃ bs, t.out.map Prod.snd = s.out.map Prod.snd ++ bs ∧ t'.out.map Prod.snd = s'.out.map Prod.snd ++ bs

/-! ## Addressing-mode dispatcher -/

/-- Rule R152 with rule R151: SEL.MODE returns the table's cell for a valid combination and faults
MODE_INVALID for a `Disp` value, a pair that is no index pair, and an INVALID cell. -/
def Obligations.SelectMode : Prop :=
  ∀ (cls : AccessClass) (s : State), s.fault = false →
    (∀ am, (encode (.selMode cls am)).op = 0x40#8) ∧
    (∀ (i : IndexName) (tag : ModeTag) (e : ModeEntry), params.modeTable cls i tag = some e →
      exec (.selMode cls (modeOf tag (params.idx i))) s = answers s (.modeEntry e)) ∧
    (∀ (i : IndexName) (tag : ModeTag), params.modeTable cls i tag = none →
      exec (.selMode cls (modeOf tag (params.idx i))) s = faults s .modeInvalid) ∧
    (∀ (p : RegisterPair) (tag : ModeTag), (∀ i, p ≠ params.idx i) →
      exec (.selMode cls (modeOf tag p)) s = faults s .modeInvalid) ∧
    (∀ (p : RegisterPair) (q : Nat), exec (.selMode cls (.disp p q)) s = faults s .modeInvalid)

/-- Rule R153: SEL.DISP: MODE_INVALID for another shape, for a pair that is no index pair or not in
`DISP_PAIRS`, and for an INVALID cell, then IMM_RANGE for `q > 63`, else the table's cell. -/
def Obligations.SelectDisplacement : Prop :=
  ∀ (cls : AccessClass) (s : State), s.fault = false →
    (∀ am, (encode (.selDisp cls am)).op = 0x41#8) ∧
    (∀ (i : IndexName) (q : Nat) (e : DispEntry), i ∈ params.dispPairs → params.dispTable cls i = some e →
      (q ≤ 63 → exec (.selDisp cls (.disp (params.idx i) q)) s = answers s (.dispEntry e)) ∧
      (63 < q → exec (.selDisp cls (.disp (params.idx i) q)) s = faults s .immRange)) ∧
    (∀ (i : IndexName) (q : Nat), i ∉ params.dispPairs ∨ params.dispTable cls i = none →
      exec (.selDisp cls (.disp (params.idx i) q)) s = faults s .modeInvalid) ∧
    (∀ (p : RegisterPair) (q : Nat), (∀ i, p ≠ params.idx i) →
      exec (.selDisp cls (.disp p q)) s = faults s .modeInvalid) ∧
    (∀ (p : RegisterPair) (tag : ModeTag), exec (.selDisp cls (modeOf tag p)) s = faults s .modeInvalid)

/-- Rules R152 and R153 over any parameters whose three index pairs differ: the selection is the
table's cell, or MODE_INVALID (D20 to D23: the tables are OPEN). -/
def Obligations.SelectionFollowsAnyTables : Prop :=
  ∀ (P : Config.Params), P.idx .A ≠ P.idx .B → P.idx .A ≠ P.idx .C → P.idx .B ≠ P.idx .C →
    ∀ (cls : AccessClass) (i : IndexName) (tag : ModeTag) (q : Nat),
      selMode P cls (modeOf tag (P.idx i)) = orModeInvalid (P.modeTable cls i tag) ∧
      selDisp P cls (.disp (P.idx i) q) =
        (match P.dispTable cls i with
         | some e => if i ∈ P.dispPairs then (if q ≤ 63 then .ok e else .error .immRange) else .error .modeInvalid
         | none => .error .modeInvalid)

/-- Rule R155: the default parameters and tables are right (they are the spec's defaults, PRESUMED;
log 6). -/
def Obligations.DefaultParametersAreRight : Prop := paramsOk params = true

/-- Rules R155, R174 and R175: with right parameters, whatever they are, EMIT.MODE can fault only
MODE_INVALID or REG_RANGE, and EMIT.DISP only those or IMM_RANGE: no template fault remains. -/
def Obligations.RightTablesRaiseNoTemplateFault : Prop :=
  ∀ (P : Config.Params) (len : Nat) (cls : AccessClass) (reg : Register) (am : AddressingMode) (c : Cause),
    paramsOk P = true →
    (emitModeBytes P len cls reg am = .error c → c = .modeInvalid ∨ c = .regRange) ∧
    (emitDispBytes P len cls reg am = .error c → c = .modeInvalid ∨ c = .immRange ∨ c = .regRange)

/-! ## Composite encode commands -/

/-- Rule R170: an EMIT whose entry is pre-validated and whose operands meet the table of rule R57
appends the template's words, filled with the patterns of that table; a REL or ABS2 slot with
a `Relative` offset does not meet it at `LEN >= 2^32` (rule R145; DESIGN CHOICE, log 14). -/
def Obligations.EmitAppendsEncodedOperands : Prop :=
  ∀ (entry : CatalogEntry) (operands : List Operand) (slots : List TypedSlot) (items : List Item)
    (fields : List PackField) (s : State), s.fault = false →
    bindSlots entry.slots operands = some slots → validated slots entry.template →
    parseTemplate entry.template = .ok items →
    allFields? params s.len (letterCount items) slots = some fields →
    (encode (.emit entry operands)).op = 0x48#8 ∧
    exec (.emit entry operands) s =
      appends s (resultBytes (accumulate items fields) (items.length / 16))

/-- Rule R57 with rules R65, R110 and R147: where the slot's letter has a width of at least 1, what EMIT
does with a slot is the table's row, and where a condition of the row fails it faults with the cause
of the first one that does (rules R200, R203). The REL and ABS2 rows fault OFFSET_RANGE for a
`Relative` offset at `LEN >= 2^32` (rule R145; DESIGN CHOICE, log 14). -/
def Obligations.SlotsFollowTheOperandTable : Prop :=
  ∀ (P : Config.Params) (len : Nat) (w : Letter → Nat) (sl : TypedSlot),
    (∀ x, slotLetter? sl = some x → 1 ≤ w x) →
    (∀ f, slotFields? P len w sl = some f → encodeSlot P len w sl = .ok f) ∧
    (slotFields? P len w sl = none → encodeSlot P len w sl = .error (slotCause len w sl))

/-- Rule R170 with rules R172 and R203: the order of EMIT's faults: characters, then designators,
then the first slot in catalog order that faults, then the total width. -/
def Obligations.EmitFaultsInOrder : Prop :=
  ∀ (entry : CatalogEntry) (operands : List Operand) (slots : List TypedSlot) (s : State), s.fault = false →
    bindSlots entry.slots operands = some slots →
    ((∃ c ∈ entry.template.toList, ¬ legalChar c) →
      exec (.emit entry operands) s = faults s .templateChar) ∧
    ∀ items, parseTemplate entry.template = .ok items →
      (¬ lettersMatch (slotLetters slots) items →
        exec (.emit entry operands) s = faults s .designatorMismatch) ∧
      (lettersMatch (slotLetters slots) items →
        (∀ pre sl post fs c, slots = pre ++ sl :: post →
          encodeSlots params s.len (letterCount items) pre = .ok fs →
          encodeSlot params s.len (letterCount items) sl = .error c →
          exec (.emit entry operands) s = faults s c) ∧
        (∀ fs, encodeSlots params s.len (letterCount items) slots = .ok fs →
          items.length ≠ 16 → items.length ≠ 32 →
          exec (.emit entry operands) s = faults s .templateWidth))

/-- Rule R173: an EMIT whose stages A to C give an operand list has exactly the effect of the PACK
command it ends with. -/
def Obligations.EmitEndsAsPack : Prop :=
  ∀ (entry : CatalogEntry) (operands : List Operand) (slots : List TypedSlot) (fields : List PackField) (s : State),
    bindSlots entry.slots operands = some slots →
    emitFields params s.len slots entry.template = .ok fields →
    exec (.emit entry operands) s = exec (.pack fields entry.template) s

/-- Rules R171, R66 and R242 (c), over any parameters: no EMIT faults WIDTH_MISMATCH, and one with a
pre-validated entry raises none of the catalog's causes. -/
def Obligations.ValidatedEntryRaisesNoCatalogFault : Prop :=
  ∀ (P : Config.Params) (len : Nat) (slots : List TypedSlot) (template : String) (c : Cause),
    emitBytes P len slots template = .error c →
    c ≠ .widthMismatch ∧
    (validated slots template →
      c ≠ .regWidth ∧ c ≠ .designatorMismatch ∧ c ≠ .templateWidth ∧ c ≠ .templateChar)

/-- Rule R174: EMIT.MODE faults MODE_INVALID where the selection does, and else is the EMIT of one REG
slot with the selected template; a valid combination with a valid register appends exactly one word's
bytes. That each selected template has 16 items and a 5-bit register field, the last clause, is of the
model's default tables (PRESUMED, log 6). -/
def Obligations.EmitModeIsSelectedEmit : Prop :=
  ∀ (cls : AccessClass) (reg : Register) (am : AddressingMode) (s : State), s.fault = false →
    (encode (.emitMode cls reg am)).op = 0x49#8 ∧
    (∀ c, selMode params cls am = .error c → exec (.emitMode cls reg am) s = faults s c) ∧
    (∀ e, selMode params cls am = .ok e →
      exec (.emitMode cls reg am) s = exec (.emit ⟨"", [.reg e.regLetter], e.template⟩ [.reg reg]) s ∧
      (31 < reg.id.toNat → exec (.emitMode cls reg am) s = faults s .regRange) ∧
      (reg.id.toNat ≤ 31 → ∃ items, parseTemplate e.template = .ok items ∧ items.length = 16 ∧
        exec (.emitMode cls reg am) s =
          appends s (resultBytes (accumulate items [⟨e.regLetter, reg.id.toNat, 5⟩]) 1)))

/-- Rule R175: EMIT.DISP faults as the selection does, and else is the EMIT of a REG and a UIMM slot
with the selected template, the displacement under its own letter; a valid combination with a valid
register appends exactly one word's bytes. That each selected template has 16 items and fields of 5
and 6 bits, the last clause, is of the model's default tables (PRESUMED, log 6). -/
def Obligations.EmitDispIsSelectedEmit : Prop :=
  ∀ (cls : AccessClass) (reg : Register) (am : AddressingMode) (s : State), s.fault = false →
    (encode (.emitDisp cls reg am)).op = 0x4A#8 ∧
    (∀ c, selDisp params cls am = .error c → exec (.emitDisp cls reg am) s = faults s c) ∧
    (∀ p q e, am = .disp p q → selDisp params cls am = .ok e →
      exec (.emitDisp cls reg am) s =
        exec (.emit ⟨"", [.reg e.regLetter, .uimm e.dispLetter], e.template⟩ [.reg reg, .nat q]) s ∧
      (31 < reg.id.toNat → exec (.emitDisp cls reg am) s = faults s .regRange) ∧
      (reg.id.toNat ≤ 31 → ∃ items, parseTemplate e.template = .ok items ∧ items.length = 16 ∧
        exec (.emitDisp cls reg am) s =
          appends s (resultBytes (accumulate items [⟨e.regLetter, reg.id.toNat, 5⟩, ⟨e.dispLetter, q, 6⟩]) 1)))

/-- Rule R160: with the default tables, displacement 0 and the plain mode on `IDX_B` or `IDX_C` append
the same word for the same register. -/
def Obligations.ZeroDisplacementWordEqualsPlain : Prop :=
  ∀ (cls : AccessClass) (i : IndexName) (reg : Register) (s : State), cls ≠ .pmread → i ≠ .A →
    exec (.emitDisp cls reg (.disp (params.idx i) 0)) s = exec (.emitMode cls reg (.plain (params.idx i))) s

/-! ## Control and read-out -/

/-- Rule R179: RDLEN returns `LEN` in every state, also a faulted one. -/
def Obligations.ReadLength : Prop :=
  (encode .rdlen).op = 0x71#8 ∧ ∀ s : State, exec .rdlen s = answers s (.length s.len)

/-- Rule R180: RDOUT returns the bytes that exist in the range, also when `FAULT` = 1, and never faults
(stated for states whose `OUT` is a sequence, which `StepKeepsInvariant` and `ResetMeetsInvariant`
give). -/
def Obligations.ReadOutput : Prop :=
  (∀ addr n, (encode (.rdout addr n)).op = 0x72#8) ∧
  ∀ (addr n : Nat) (s : State), s.out.wf = true →
    exec (.rdout addr n) s = answers s (.bytes (((s.out.map Prod.snd).drop addr).take n))

/-- Rule R181: RDSTAT returns `{0b00, CAUSE[4:0], FAULT}` in every state, also a faulted one. -/
def Obligations.ReadStatus : Prop :=
  (encode .rdstat).op = 0x73#8 ∧
  ∀ s : State, ∃ w : Byte, exec .rdstat s = answers s (.status w) ∧
    w.toNat = 2 * s.cause.code.toNat + s.fault.toNat ∧ w.toNat < 64
end

