-- ==== Sys2Proof/Laws/Ops.lean ====
section
/-! SUPPORT. What the shared operations can do, once each: the proofs about instructions cite these
instead of unfolding the operations. -/

namespace Sys2Proof.Machine

/-- An attempt in the faulted state is refused (rule R205). -/
theorem attempt_faulted (s : State) (body : Result) (h : s.fault = true) :
    attempt s body = .next (refuseFaulted s) := by
  simp [attempt, h]

/-- An attempt with no fault recorded is the command's own body. -/
theorem attempt_running (s : State) (body : Result) (h : s.fault = false) :
    attempt s body = body := by
  simp [attempt, h]

/-- Everything a pure command can do. -/
theorem pureCommand_next (s t : State) (r : Except Cause Value) (h : pureCommand s r = .next t) :
    (s.fault = true ∧ t = refuseFaulted s) ∨
    (s.fault = false ∧ ∃ v, r = .ok v ∧ t = s.respond (.ok v)) ∨
    (s.fault = false ∧ ∃ c, r = .error c ∧ t = raiseFault c s) := by
  cases hf : s.fault with
  | true =>
    rw [pureCommand, attempt_faulted s _ hf] at h
    exact .inl ⟨rfl, by injection h with h; exact h.symm⟩
  | false =>
    rw [pureCommand, attempt_running s _ hf] at h
    injection h with h
    cases r with
    | ok v => exact .inr (.inl ⟨rfl, v, rfl, h.symm⟩)
    | error c => exact .inr (.inr ⟨rfl, c, rfl, h.symm⟩)

/-- Everything an appending command can do. -/
theorem appendCommand_next (s t : State) (r : Except Cause (List Byte)) (h : appendCommand s r = .next t) :
    (s.fault = true ∧ t = refuseFaulted s) ∨
    (s.fault = false ∧ ∃ bs, r = .ok bs ∧ t = (s.append bs).respond (.ok (.bytes bs))) ∨
    (s.fault = false ∧ ∃ c, r = .error c ∧ t = raiseFault c s) := by
  cases hf : s.fault with
  | true =>
    rw [appendCommand, attempt_faulted s _ hf] at h
    exact .inl ⟨rfl, by injection h with h; exact h.symm⟩
  | false =>
    rw [appendCommand, attempt_running s _ hf] at h
    injection h with h
    cases r with
    | ok bs => exact .inr (.inl ⟨rfl, bs, rfl, h.symm⟩)
    | error c => exact .inr (.inr ⟨rfl, c, rfl, h.symm⟩)

theorem pureCommand_ok (s : State) (v : Value) (h : s.fault = false) :
    pureCommand s (.ok v) = .next (s.respond (.ok v)) := by
  rw [pureCommand, attempt_running s _ h]; rfl

theorem pureCommand_error (s : State) (c : Cause) (h : s.fault = false) :
    pureCommand s (.error c) = .next (raiseFault c s) := by
  rw [pureCommand, attempt_running s _ h]; rfl

theorem appendCommand_ok (s : State) (bs : List Byte) (h : s.fault = false) :
    appendCommand s (.ok bs) = .next ((s.append bs).respond (.ok (.bytes bs))) := by
  rw [appendCommand, attempt_running s _ h]; rfl

theorem appendCommand_error (s : State) (c : Cause) (h : s.fault = false) :
    appendCommand s (.error c) = .next (raiseFault c s) := by
  rw [appendCommand, attempt_running s _ h]; rfl

/-- Pure and appending commands always answer a next state. -/
theorem pureCommand_answers (s : State) (r : Except Cause Value) :
    ∃ t, pureCommand s r = .next t := by
  simp only [pureCommand, attempt]
  split <;> exact ⟨_, rfl⟩

theorem appendCommand_answers (s : State) (r : Except Cause (List Byte)) :
    ∃ t, appendCommand s r = .next t := by
  simp only [appendCommand, attempt]
  split <;> exact ⟨_, rfl⟩

end Sys2Proof.Machine
end

