-- ==== Sys2Proof/Laws/Operands.lean ====
section
/-! SUPPORT. One equation per function of the operand encoder, the resolver and the dispatcher, with
every `require` as one `if`. -/

namespace Sys2Proof.Machine

@[simp] theorem except_ok_bind {α β : Type} (a : α) (f : α → Except Cause β) :
    (Except.ok a >>= f) = f a := rfl
@[simp] theorem except_error_bind {α β : Type} (c : Cause) (f : α → Except Cause β) :
    ((Except.error c : Except Cause α) >>= f) = .error c := rfl
@[simp] theorem except_pure {α : Type} (a : α) : (pure a : Except Cause α) = .ok a := rfl
@[simp] theorem except_map_ok {α β : Type} (a : α) (f : α → β) :
    (Except.ok a : Except Cause α).map f = .ok (f a) := rfl
@[simp] theorem except_map_error {α β : Type} (c : Cause) (f : α → β) :
    (Except.error c : Except Cause α).map f = .error c := rfl

/-- A `require` before the rest of a command: the rest runs, or the fault is raised. -/
theorem require_bind {α : Type} (c : Bool) (x : Cause) (f : Unit → Except Cause α) :
    (require c x >>= f) = if c then f () else .error x := by
  cases c <;> rfl

/-- A bind that is OK: both parts were. -/
theorem bind_eq_ok {α β : Type} (e : Except Cause α) (f : α → Except Cause β) (b : β) :
    (e >>= f) = .ok b ↔ ∃ a, e = .ok a ∧ f a = .ok b := by
  cases e with
  | ok a => simp
  | error c => simp

/-- A bind that faults: the first part did, or the second did after it. -/
theorem bind_eq_error {α β : Type} (e : Except Cause α) (f : α → Except Cause β) (c : Cause) :
    (e >>= f) = .error c ↔ e = .error c ∨ ∃ a, e = .ok a ∧ f a = .error c := by
  cases e with
  | ok a => simp
  | error d => simp

theorem map_eq_ok {α β : Type} (e : Except Cause α) (f : α → β) (b : β) :
    e.map f = .ok b ↔ ∃ a, e = .ok a ∧ f a = b := by
  cases e with
  | ok a => simp
  | error c => simp

theorem map_eq_error {α β : Type} (e : Except Cause α) (f : α → β) (c : Cause) :
    e.map f = .error c ↔ e = .error c := by
  cases e with
  | ok a => simp
  | error d => simp

theorem encReg5_eq (r : Register) :
    encReg5 r = if r.id.toNat ≤ 31 then .ok r.id.toNat else .error .regRange := by
  simp [encReg5, require_bind]

theorem encReg4_eq (r : Register) :
    encReg4 r = if 16 ≤ r.id.toNat ∧ r.id.toNat ≤ 31 then .ok (r.id.toNat &&& 0xF) else .error .regRange := by
  simp [encReg4, require_bind]

theorem encReg3_eq (r : Register) :
    encReg3 r = if 16 ≤ r.id.toNat ∧ r.id.toNat ≤ 23 then .ok (r.id.toNat &&& 0x7) else .error .regRange := by
  simp [encReg3, require_bind]

theorem encReg10_eq (r : Register) :
    encReg10 r = if r.id.toNat ≤ 31 then
      .ok (((r.id.toNat &&& 16) <<< 5) ||| (r.id.toNat <<< 4) ||| (r.id.toNat &&& 0xF))
    else .error .regRange := by
  simp [encReg10, require_bind]

theorem validReg_iff (r : Register) : validReg r = true ↔ r.id.toNat ≤ 31 := by
  unfold validReg Config.maxRegId
  exact decide_eq_true_iff

theorem pairShape_iff (p : RegisterPair) :
    pairShape p = true ↔ p.high.id.toNat = p.low.id.toNat + 1 ∧ p.low.id.toNat % 2 = 0 := by
  simp [pairShape]

theorem encPair_eq (p : RegisterPair) (n : Nat) :
    encPair p n =
      if p.high.id.toNat ≤ 31 ∧ p.low.id.toNat ≤ 31 then
        if p.high.id.toNat = p.low.id.toNat + 1 ∧ p.low.id.toNat % 2 = 0 then
          if 32 ≤ p.low.id.toNat + 2 * 2 ^ n then .ok (p.low.id.toNat / 2) else .error .pairRange
        else .error .pairInvalid
      else .error .regRange := by
  have key : ((32 : Int) - 2 * 2 ^ n ≤ (p.low.id.toNat : Int)) ↔ 32 ≤ p.low.id.toNat + 2 * 2 ^ n := by
    have : ((2 ^ n : Nat) : Int) = (2 : Int) ^ n := by simp
    omega
  simp only [encPair, require_bind, Bool.and_eq_true, validReg_iff, pairShape_iff, decide_eq_true_eq, key,
    except_pure]

theorem encUimm_eq (v n : Nat) : encUimm v n = if v < 2 ^ n then .ok v else .error .immRange := by
  simp [encUimm, require_bind]

theorem encSoff_eq (v : I32) (n : Nat) :
    encSoff v n = if -(2 : Int) ^ (n - 1) ≤ v.toInt ∧ v.toInt < (2 : Int) ^ (n - 1) then
      .ok (fieldBits v.toInt n) else .error .soffRange := by
  simp [encSoff, require_bind]

theorem encFixed_eq (P : Config.Params) (p : RegisterPair) :
    encFixed P p = if p = P.fixedPair then .ok () else .error .fixedMismatch := by
  by_cases h : p = P.fixedPair <;> simp [encFixed, require, h]

theorem resAbs_eq (len : Nat) (off : Offset) :
    resAbs len off = if Resolves len off then
      .ok (BitVec.ofInt 32 (offsetTarget len off)) else .error .offsetRange := by
  simp only [resAbs, require_bind, decide_eq_true_eq]
  rfl

/-- An absolute offset resolves at every `LEN` (rule R141). -/
theorem resolves_absolute (len : Nat) (addr : U32) : Resolves len (.absolute addr) := by
  have := addr.isLt
  simp only [Resolves, lenInSum, offsetTarget]
  omega

/-- When a relative offset resolves (rules R141, R145). -/
theorem resolves_relative (len : Nat) (d : I32) :
    Resolves len (.relative d) ↔
      len < 2 ^ 32 ∧ 0 ≤ (len : Int) + d.toInt ∧ (len : Int) + d.toInt < 2 ^ 32 := Iff.rfl

/-- Where RES.ABS is OK its result is the offset's target, unwrapped (rule R145). -/
theorem resAbs_toNat (len : Nat) (off : Offset)
    (h : Resolves len off) :
    ((BitVec.ofInt 32 (offsetTarget len off)).toNat : Int) = offsetTarget len off := by
  rw [BitVec.toNat_ofInt]
  have := h.2
  omega

theorem selMode_eq (P : Config.Params) (cls : AccessClass) (tag : ModeTag) (p : RegisterPair) (am : AddressingMode)
    (i : IndexName) (hs : modeShape am = some (tag, p)) (hi : indexOf P p = some i) :
    selMode P cls am = orModeInvalid (P.modeTable cls i tag) := by
  simp [selMode, hs, hi, orModeInvalid]

theorem orModeInvalid_eq_ok {α : Type} (o : Option α) (a : α) : orModeInvalid o = .ok a ↔ o = some a := by
  cases o <;> simp [orModeInvalid]

theorem orModeInvalid_eq_error {α : Type} (o : Option α) (c : Cause) :
    orModeInvalid o = .error c ↔ o = none ∧ c = .modeInvalid := by
  cases o <;> simp [orModeInvalid, eq_comm]

end Sys2Proof.Machine
end

