-- ==== Sys2Proof/Laws/Packer.lean ====
section
/-! SUPPORT. The template packer and EMIT: what their success and their faults say, once each. -/

namespace Sys2Proof.Machine

@[simp] theorem wordBytes_length (w : Word) : (wordBytes w).length = 2 := rfl

@[simp] theorem resultBytes_length (R n : Nat) : (resultBytes R n).length = 2 * n := by
  simp [resultBytes, resultWords, List.length_flatMap, Function.comp_def, Nat.mul_comm]

/-- The total width test admits 16 and 32 and nothing else (rule R125). -/
theorem widthOk_iff (total : Nat) : widthOk total = true ↔ total = 16 ∨ total = 32 := by
  unfold widthOk Config.wordBits Config.maxWords
  rw [Bool.and_eq_true, Bool.and_eq_true, decide_eq_true_iff, decide_eq_true_iff, decide_eq_true_iff]
  omega

theorem mem_templateLetters (items : List Item) (x : Letter) :
    x ∈ templateLetters items ↔ Item.field x ∈ items := by
  induction items with
  | nil => simp [templateLetters]
  | cons it items ih => cases it <;> simp [templateLetters, ih]

theorem sameLetters_iff (xs : List Letter) (items : List Item) :
    sameLetters xs items = true ↔ ∀ x, x ∈ xs ↔ Item.field x ∈ items := by
  simp only [sameLetters, Bool.and_eq_true, List.all_eq_true, decide_eq_true_eq, mem_templateLetters]
  exact ⟨fun h x => ⟨h.1 x, h.2 x⟩, fun h => ⟨fun x => (h x).mp, fun x => (h x).mpr⟩⟩

theorem noRepeat_iff (xs : List Letter) : noRepeat xs = true ↔ xs.Nodup := by
  simp [noRepeat]

/-- When PACK appends, and what (rules R120, R122, R125, R126). -/
theorem packBytes_eq_ok (fields : List PackField) (template : String) (bs : List Byte) :
    packBytes fields template = .ok bs ↔
      ∃ items, parseTemplate template = .ok items ∧ (fieldLetters fields).Nodup ∧
        (∀ x, x ∈ fieldLetters fields ↔ Item.field x ∈ items) ∧
        (∀ f ∈ fields, f.width = letterCount items f.letter) ∧
        (items.length = 16 ∨ items.length = 32) ∧
        bs = resultBytes (accumulate items fields) (items.length / Config.wordBits) := by
  simp only [packBytes, bind_eq_ok, require_bind]
  constructor
  · rintro ⟨items, hp, h⟩
    refine ⟨items, hp, ?_⟩
    split at h <;> [skip; cases h]
    split at h <;> [skip; cases h]
    split at h <;> [skip; cases h]
    split at h <;> [skip; cases h]
    rename_i h1 h2 h3 h4
    refine ⟨(noRepeat_iff _).mp h1, (sameLetters_iff _ _).mp h2, ?_, (widthOk_iff _).mp h4, ?_⟩
    · simpa using h3
    · injection h with h; exact h.symm
  · rintro ⟨items, hp, h1, h2, h3, h4, rfl⟩
    refine ⟨items, hp, ?_⟩
    rw [if_pos ((noRepeat_iff _).mpr h1), if_pos ((sameLetters_iff _ _).mpr h2),
      if_pos (by simpa using h3), if_pos ((widthOk_iff _).mpr h4)]
    rfl

/-- PACK appends one or two words (rules R50, R125). -/
theorem packBytes_length (fields : List PackField) (template : String) (bs : List Byte)
    (h : packBytes fields template = .ok bs) : bs.length = 2 ∨ bs.length = 4 := by
  obtain ⟨items, -, -, -, -, hT, rfl⟩ := (packBytes_eq_ok _ _ _).mp h
  rcases hT with hT | hT <;> simp [hT, Config.wordBits]

theorem parseChars_error (cs : List Char) (c : Cause) (h : parseChars cs = .error c) : c = .templateChar := by
  induction cs with
  | nil => simp [parseChars] at h
  | cons ch cs ih =>
    simp only [parseChars] at h
    split at h
    · exact ih h
    · split at h
      · injection h with h; exact h.symm
      · exact ih ((map_eq_error _ _ _).mp h)

/-- The causes PACK can raise (rule R201). -/
theorem packBytes_error (fields : List PackField) (template : String) (c : Cause)
    (h : packBytes fields template = .error c) :
    c ∈ [Cause.templateChar, .designatorMismatch, .widthMismatch, .templateWidth] := by
  simp only [packBytes, bind_eq_error, require_bind] at h
  rcases h with h | ⟨items, -, h⟩
  · simp [parseChars_error _ _ h]
  · split at h <;> [skip; (injection h with h; simp [← h])]
    split at h <;> [skip; (injection h with h; simp [← h])]
    split at h <;> [skip; (injection h with h; simp [← h])]
    split at h <;> [cases h; (injection h with h; simp [← h])]

/-- Parts A to C of EMIT when they give an operand list (rule R170). -/
theorem emitFields_eq_ok (P : Config.Params) (len : Nat) (slots : List TypedSlot) (template : String)
    (fields : List PackField) :
    emitFields P len slots template = .ok fields ↔
      ∃ items, parseTemplate template = .ok items ∧ (slotLetters slots).Nodup ∧
        (∀ x, x ∈ slotLetters slots ↔ Item.field x ∈ items) ∧
        encodeSlots P len (letterCount items) slots = .ok fields := by
  simp only [emitFields, bind_eq_ok, require_bind]
  constructor
  · rintro ⟨items, hp, h⟩
    split at h <;> [skip; cases h]
    split at h <;> [skip; cases h]
    rename_i h1 h2
    exact ⟨items, hp, (noRepeat_iff _).mp h1, (sameLetters_iff _ _).mp h2, h⟩
  · rintro ⟨items, hp, h1, h2, h3⟩
    refine ⟨items, hp, ?_⟩
    rw [if_pos ((noRepeat_iff _).mpr h1), if_pos ((sameLetters_iff _ _).mpr h2), h3]

theorem emitBytes_eq_ok (P : Config.Params) (len : Nat) (slots : List TypedSlot) (template : String)
    (bs : List Byte) :
    emitBytes P len slots template = .ok bs ↔
      ∃ fields, emitFields P len slots template = .ok fields ∧ packBytes fields template = .ok bs := by
  simp [emitBytes, bind_eq_ok]

theorem emitBytes_eq_error (P : Config.Params) (len : Nat) (slots : List TypedSlot) (template : String)
    (c : Cause) :
    emitBytes P len slots template = .error c ↔
      emitFields P len slots template = .error c ∨
      ∃ fields, emitFields P len slots template = .ok fields ∧ packBytes fields template = .error c := by
  simp [emitBytes, bind_eq_error]

/-- Slots are encoded in catalog order: the first failing one decides the cause (rule R172). -/
theorem encodeSlots_append (P : Config.Params) (len : Nat) (w : Letter → Nat) (pre post : List TypedSlot)
    (fs : List PackField) (h : encodeSlots P len w pre = .ok fs) :
    encodeSlots P len w (pre ++ post) = (encodeSlots P len w post).map (fs ++ ·) := by
  induction pre generalizing fs with
  | nil =>
    simp only [encodeSlots] at h
    injection h with h
    subst h
    cases h : encodeSlots P len w post <;> simp [h]
  | cons sl pre ih =>
    simp only [encodeSlots, bind_eq_ok] at h
    obtain ⟨f, hf, fs', hfs, h⟩ := h
    injection h with h
    subst h
    simp only [List.cons_append, encodeSlots, hf, except_ok_bind, ih fs' hfs]
    cases encodeSlots P len w post <;> simp

end Sys2Proof.Machine
end

