-- ==== Sys2Proof/Laws/Exec.lean ====
section
/-! SUPPORT. Say once what a command and a step can do: `exec_cases` and `step_cases`. Invariants and
frames are short case splits on these. -/

namespace Sys2Proof.Machine

open Sys2Proof.Safety

/-- EMIT appends one or two words (rules R50, R125). -/
theorem emitBytes_length (P : Config.Params) (len : Nat) (slots : List TypedSlot) (template : String)
    (bs : List Byte) (h : emitBytes P len slots template = .ok bs) : bs.length = 2 ∨ bs.length = 4 := by
  obtain ⟨fields, -, hp⟩ := (emitBytes_eq_ok _ _ _ _ _).mp h
  exact packBytes_length _ _ _ hp

theorem emitModeBytes_length (P : Config.Params) (len : Nat) (cls : AccessClass) (reg : Register)
    (am : AddressingMode) (bs : List Byte) (h : emitModeBytes P len cls reg am = .ok bs) :
    bs.length = 2 ∨ bs.length = 4 := by
  obtain ⟨e, -, he⟩ := (bind_eq_ok _ _ _).mp h
  exact emitBytes_length _ _ _ _ _ he

theorem emitDispBytes_length (P : Config.Params) (len : Nat) (cls : AccessClass) (reg : Register)
    (am : AddressingMode) (bs : List Byte) (h : emitDispBytes P len cls reg am = .ok bs) :
    bs.length = 2 ∨ bs.length = 4 := by
  obtain ⟨e, -, he⟩ := (bind_eq_ok _ _ _).mp h
  exact emitBytes_length _ _ _ _ _ he

/-- Where an appending command stores anything, it is what PACK makes of its template and some operand
list (rules R173 to R175). -/
theorem storedBytes_packed (i : Instr) (s : State) (h : storedBytes i s ≠ []) :
    ∃ template fields, templateOf? i = some template ∧
      packBytes fields template = .ok (storedBytes i s) := by
  have ok {r : Except Cause (List Byte)} (hr : r.toOption.getD [] ≠ []) : r = .ok (r.toOption.getD []) := by
    cases r with
    | ok bs => rfl
    | error c => exact absurd rfl hr
  cases i with
  | pack fields template => exact ⟨template, fields, rfl, ok h⟩
  | emit entry operands =>
    simp only [storedBytes] at h ⊢
    split at h
    · obtain ⟨fields, -, hp⟩ := (emitBytes_eq_ok _ _ _ _ _).mp (ok h)
      exact ⟨_, fields, rfl, hp⟩
    · exact absurd rfl h
  | emitMode cls reg am =>
    obtain ⟨e, hs, he⟩ := (bind_eq_ok _ _ _).mp (ok h)
    obtain ⟨fields, -, hp⟩ := (emitBytes_eq_ok _ _ _ _ _).mp he
    exact ⟨e.template, fields, by simp [templateOf?, hs, Except.toOption], hp⟩
  | emitDisp cls reg am =>
    obtain ⟨e, hs, he⟩ := (bind_eq_ok _ _ _).mp (ok h)
    obtain ⟨fields, -, hp⟩ := (emitBytes_eq_ok _ _ _ _ _).mp he
    exact ⟨e.template, fields, by simp [templateOf?, hs, Except.toOption], hp⟩
  | offAbs | offRel | amPlain | amPreDec | amPostInc | amDisp | encReg5 | encReg4 | encReg3 | encReg10
  | encPair | encUimm | encSoff | encFixed | resAbs | resAbs2 | resRel | selMode | selDisp
  | reset | rdlen | rdout | rdstat => exact absurd rfl h

/-- A command that answers a next state does one of six things. -/
inductive Effect (i : Instr) (s t : State) : Prop where
  /-- it is refused in the faulted state (rule R205) -/
  | refused (hf : s.fault = true) (hc : isControl i = false) (ht : t = refuseFaulted s)
  /-- it is OK and appends nothing -/
  | answered (v : Value) (hf : s.fault = false) (hc : isControl i = false) (ha : isAppending i = false)
      (ht : t = s.respond (.ok v))
  /-- it is OK and appends its bytes -/
  | appended (bs : List Byte) (hf : s.fault = false) (ha : isAppending i = true) (hb : storedBytes i s = bs)
      (hl : bs.length = 2 ∨ bs.length = 4) (ht : t = (s.append bs).respond (.ok (.bytes bs)))
  /-- it faults (rule R204) -/
  | faulted (c : Cause) (hf : s.fault = false) (hc : isControl i = false) (hb : storedBytes i s = [])
      (ht : t = raiseFault c s)
  /-- it reads, in any state (rules R179 to R181) -/
  | read (v : Value) (hc : isControl i = true) (hr : i ≠ .reset) (ht : t = s.respond (.ok v))
  /-- it is RESET (rule R178) -/
  | reset (hr : i = .reset) (ht : t = (resetBlock s).respond (.ok .nothing))

theorem effect_of_pure (i : Instr) (s t : State) (r : Except Cause Value) (h : pureCommand s r = .next t)
    (hc : isControl i = false) (ha : isAppending i = false) (hb : storedBytes i s = []) : Effect i s t := by
  rcases pureCommand_next s t r h with ⟨hf, ht⟩ | ⟨hf, v, -, ht⟩ | ⟨hf, c, -, ht⟩
  · exact .refused hf hc ht
  · exact .answered v hf hc ha ht
  · exact .faulted c hf hc hb ht

theorem effect_of_append (i : Instr) (s t : State) (r : Except Cause (List Byte))
    (h : appendCommand s r = .next t) (hc : isControl i = false) (ha : isAppending i = true)
    (hb : storedBytes i s = r.toOption.getD []) (hl : ∀ bs, r = .ok bs → bs.length = 2 ∨ bs.length = 4) :
    Effect i s t := by
  rcases appendCommand_next s t r h with ⟨hf, ht⟩ | ⟨hf, bs, hr, ht⟩ | ⟨hf, c, hr, ht⟩
  · exact .refused hf hc ht
  · exact .appended bs hf ha (by rw [hb, hr]; rfl) (hl bs hr) ht
  · exact .faulted c hf hc (by rw [hb, hr]; rfl) ht

/-- Everything a command can do when it answers a next state. -/
theorem exec_cases (i : Instr) (s t : State) (h : exec i s = .next t) : Effect i s t := by
  cases i with
  | pack fields template => exact effect_of_append _ s t _ h rfl rfl rfl (packBytes_length _ _)
  | emitMode cls reg am => exact effect_of_append _ s t _ h rfl rfl rfl (emitModeBytes_length _ _ _ _ _)
  | emitDisp cls reg am => exact effect_of_append _ s t _ h rfl rfl rfl (emitDispBytes_length _ _ _ _ _)
  | emit entry operands =>
    simp only [exec, execEmit] at h
    cases hb : bindSlots entry.slots operands with
    | some slots =>
      rw [hb] at h
      exact effect_of_append _ s t _ h rfl rfl (by simp [storedBytes, hb]) (emitBytes_length _ _ _ _)
    | none =>
      rw [hb] at h
      cases hf : s.fault with
      | true =>
        rw [attempt_faulted s _ hf] at h
        exact .refused hf rfl (by injection h with h; exact h.symm)
      | false => rw [attempt_running s _ hf] at h; cases h
  | reset => exact .reset rfl (by injection h with h; exact h.symm)
  | rdlen => exact .read _ rfl (by simp) (by injection h with h; exact h.symm)
  | rdout addr n => exact .read _ rfl (by simp) (by injection h with h; exact h.symm)
  | rdstat => exact .read _ rfl (by simp) (by injection h with h; exact h.symm)
  | offAbs | offRel | amPlain | amPreDec | amPostInc | amDisp | encReg5 | encReg4 | encReg3 | encReg10
  | encPair | encUimm | encSoff | encFixed | resAbs | resAbs2 | resRel | selMode | selDisp =>
    exact effect_of_pure _ s t _ h rfl rfl rfl

/-- Everything a step can do when it answers a next state. -/
theorem step_cases (s t : State) (h : step s = .next t) :
    (s.commands = [] ∧ t = s) ∨
    ∃ c rest, s.commands = c :: rest ∧
      ((∃ i, decode c = .ok i ∧ exec i { s with commands := rest } = .next t) ∨
       (∃ e, decode c = .error e ∧ rejectCommand e { s with commands := rest } = .next t)) := by
  unfold step fetch at h
  cases hc : s.commands with
  | nil => rw [hc] at h; exact .inl ⟨rfl, by injection h with h; exact h.symm⟩
  | cons c rest =>
    rw [hc] at h
    refine .inr ⟨c, rest, rfl, ?_⟩
    cases hd : decode c with
    | ok i => simp only [hd] at h; exact .inl ⟨i, rfl, h⟩
    | error e => simp only [hd] at h; exact .inr ⟨e, rfl, h⟩

/-- Everything the rejection of a record can do when it answers a next state. -/
theorem rejectCommand_next (e : DecodeError) (s t : State) (h : rejectCommand e s = .next t) :
    (s.fault = true ∧ t = refuseFaulted s) ∨ (s.fault = false ∧ t = raiseFault .badCommand s) := by
  cases hf : s.fault with
  | true =>
    left
    cases e <;> (simp only [rejectCommand, attempt_faulted s _ hf] at h; injection h with h; exact ⟨rfl, h.symm⟩)
  | false =>
    right
    cases e <;> simp only [rejectCommand, attempt_running s _ hf] at h
    · injection h with h; exact ⟨rfl, h.symm⟩
    · cases h

end Sys2Proof.Machine
end

