-- ==== Sys2Proof/Laws/PerInstr.lean ====
section
/-! SUPPORT. Statements made per instruction. `Selector`: the selector an operation is encoded with is
one of the 27 codes of rule R62, and its upper nibble is the operation's family. -/

namespace Sys2Proof.Laws.Selector

/-- The family code of an operation: "The selector's upper nibble is the family" (rule R62). -/
def family : Instr → Nat
  | .offAbs _ => 0
  | .offRel _ => 0
  | .amPlain _ => 0
  | .amPreDec _ => 0
  | .amPostInc _ => 0
  | .amDisp _ _ => 0
  | .encReg5 _ => 1
  | .encReg4 _ => 1
  | .encReg3 _ => 1
  | .encReg10 _ => 1
  | .encPair _ _ => 1
  | .encUimm _ _ => 1
  | .encSoff _ _ => 1
  | .encFixed _ => 1
  | .resAbs _ => 2
  | .resAbs2 _ => 2
  | .resRel _ => 2
  | .pack _ _ => 3
  | .selMode _ _ => 4
  | .selDisp _ _ => 4
  | .emit _ _ => 4
  | .emitMode _ _ _ => 4
  | .emitDisp _ _ _ => 4
  | .reset => 7
  | .rdlen => 7
  | .rdout _ _ => 7
  | .rdstat => 7

/-- The selector is no reserved one, and its upper nibble is the family. -/
def Statement (i : Instr) : Prop :=
  (encode i).op ∈ Safety.tableSelectors ∧ (encode i).op.toNat / 16 = family i

theorem offAbs (addr : U32) : Statement (.offAbs addr) := by simp [Statement, encode, family, Safety.tableSelectors]
theorem offRel (bytes : I32) : Statement (.offRel bytes) := by simp [Statement, encode, family, Safety.tableSelectors]
theorem amPlain (pair : RegisterPair) : Statement (.amPlain pair) := by simp [Statement, encode, family, Safety.tableSelectors]
theorem amPreDec (pair : RegisterPair) : Statement (.amPreDec pair) := by simp [Statement, encode, family, Safety.tableSelectors]
theorem amPostInc (pair : RegisterPair) : Statement (.amPostInc pair) := by simp [Statement, encode, family, Safety.tableSelectors]
theorem amDisp (pair : RegisterPair) (q : Nat) : Statement (.amDisp pair q) := by simp [Statement, encode, family, Safety.tableSelectors]
theorem encReg5 (reg : Register) : Statement (.encReg5 reg) := by simp [Statement, encode, family, Safety.tableSelectors]
theorem encReg4 (reg : Register) : Statement (.encReg4 reg) := by simp [Statement, encode, family, Safety.tableSelectors]
theorem encReg3 (reg : Register) : Statement (.encReg3 reg) := by simp [Statement, encode, family, Safety.tableSelectors]
theorem encReg10 (reg : Register) : Statement (.encReg10 reg) := by simp [Statement, encode, family, Safety.tableSelectors]
theorem encPair (pair : RegisterPair) (n : Width) : Statement (.encPair pair n) := by simp [Statement, encode, family, Safety.tableSelectors]
theorem encUimm (v : Nat) (n : Width) : Statement (.encUimm v n) := by simp [Statement, encode, family, Safety.tableSelectors]
theorem encSoff (v : I32) (n : Width) : Statement (.encSoff v n) := by simp [Statement, encode, family, Safety.tableSelectors]
theorem encFixed (pair : RegisterPair) : Statement (.encFixed pair) := by simp [Statement, encode, family, Safety.tableSelectors]
theorem resAbs (off : Offset) : Statement (.resAbs off) := by simp [Statement, encode, family, Safety.tableSelectors]
theorem resAbs2 (off : Offset) : Statement (.resAbs2 off) := by simp [Statement, encode, family, Safety.tableSelectors]
theorem resRel (off : Offset) : Statement (.resRel off) := by simp [Statement, encode, family, Safety.tableSelectors]
theorem pack (fields : List PackField) (template : String) : Statement (.pack fields template) := by simp [Statement, encode, family, Safety.tableSelectors]
theorem selMode (cls : AccessClass) (am : AddressingMode) : Statement (.selMode cls am) := by simp [Statement, encode, family, Safety.tableSelectors]
theorem selDisp (cls : AccessClass) (am : AddressingMode) : Statement (.selDisp cls am) := by simp [Statement, encode, family, Safety.tableSelectors]
theorem emit (entry : CatalogEntry) (operands : List Operand) : Statement (.emit entry operands) := by simp [Statement, encode, family, Safety.tableSelectors]
theorem emitMode (cls : AccessClass) (reg : Register) (am : AddressingMode) : Statement (.emitMode cls reg am) := by simp [Statement, encode, family, Safety.tableSelectors]
theorem emitDisp (cls : AccessClass) (reg : Register) (am : AddressingMode) : Statement (.emitDisp cls reg am) := by simp [Statement, encode, family, Safety.tableSelectors]
theorem reset : Statement .reset := by simp [Statement, encode, family, Safety.tableSelectors]
theorem rdlen : Statement .rdlen := by simp [Statement, encode, family, Safety.tableSelectors]
theorem rdout (addr n : Nat) : Statement (.rdout addr n) := by simp [Statement, encode, family, Safety.tableSelectors]
theorem rdstat : Statement .rdstat := by simp [Statement, encode, family, Safety.tableSelectors]

end Sys2Proof.Laws.Selector
end

