-- ==== Sys2Proof/Tests/Slice0.lean ====
section
/-! SUPPORT. The model's own tests. Expected results are the vectors of spec/95 (S, V and P entries,
named in each docstring) and the selector table of rule R62. The witnesses at the end show, for each
statement with hypotheses, operands and a state that meet all of them. -/

namespace Sys2Proof.Tests

open Sys2Proof.Machine Sys2Proof.Safety

/-! ## Helpers -/

/-- What a result shows: the bytes of `OUT`, `FAULT`, `CAUSE` and the response. -/
def view (r : Result) : Option (List Byte × Bool × Cause × Option Response) :=
  match r with
  | .next s => some (s.out.map Prod.snd, s.fault, s.cause, s.response)
  | .fault _ => none
  | .refused _ => none

/-- The view of an OK answer. -/
def okView (bytes : List Byte) (v : Value) : Option (List Byte × Bool × Cause × Option Response) :=
  some (bytes, false, .noFault, some (.ok v))

/-- The view of a fault. -/
def faultView (bytes : List Byte) (c : Cause) : Option (List Byte × Bool × Cause × Option Response) :=
  some (bytes, true, c, some (.fault c))

/-- The view of an OK append from reset. -/
def appendView (bytes : List Byte) : Option (List Byte × Bool × Cause × Option Response) :=
  okView bytes (.bytes bytes)

/-- The state a result leaves. -/
def after (r : Result) : State :=
  match r with
  | .next s => s
  | .fault _ => State.reset
  | .refused _ => State.reset

/-- A state with `n` zero bytes appended. -/
def sized (n : Nat) : State := { State.reset with out := Memory.cells 0 (List.replicate n 0#8) }

/-- A state with the bytes `AB CD` appended. -/
def otherBytes : State := { State.reset with out := Memory.cells 0 [0xAB#8, 0xCD#8] }

/-- The reset state with the host's commands `cs` to come. -/
def issuing (cs : List Command) : State := { State.reset with commands := cs }

/-- The faulted state after PAIR_INVALID with two bytes appended. -/
def faulted : State := raiseFault .pairInvalid (sized 2)

def reg (n : Nat) : Register := ⟨BitVec.ofNat 8 n⟩
def rel (d : Int) : Offset := .relative (BitVec.ofInt 32 d)
def abs (a : Nat) : Offset := .absolute (BitVec.ofNat 32 a)
/-- The designators `k`, `K`, `x`. -/
def letterk : Letter := ⟨false, 10⟩
def letterK : Letter := ⟨true, 10⟩
def letterx : Letter := ⟨false, 23⟩

def addTemplate : String := "0000 11rd dddd rrrr"
def callTemplate : String := "1001 010k kkkk 111k kkkk kkkk kkkk kkkk"
def ldi : CatalogEntry := ⟨"ldi", [.reg letterD, .uimm letterK], "1110 KKKK dddd KKKK"⟩
def rjmp : CatalogEntry := ⟨"rjmp", [.rel letterk], "1100 kkkk kkkk kkkk"⟩
def nop : CatalogEntry := ⟨"nop", [], "0000 0000 0000 0000"⟩

/-- The items of a legal template. -/
def itemsOf (t : String) : List Item := (parseTemplate t).toOption.getD []

/-- The zero record with a pair and a width. -/
def zero : OperandRecord := OperandRecord.zero

/-! ## Well-formedness: an ill-formed term for each check is refused -/

/-- Rule R170: one operand per slot; one is missing. -/
theorem test_wf_too_few : (Instr.emit ldi [.reg (reg 16)]).wf = false := by decide
/-- Rule R170: one operand per slot; one is too many. -/
theorem test_wf_too_many : (Instr.emit nop [.nat 1]).wf = false := by decide
/-- Rule R90: a pair is never taken for a register. -/
theorem test_wf_wrong_kind : (Instr.emit ldi [.pair (pairOf 17 16), .nat 1]).wf = false := by decide
/-- Rule R90: a natural number is never taken for a signed one. -/
theorem test_wf_wrong_number :
    (Instr.emit ⟨"", [.simm letterk], "1100 kkkk kkkk kkkk"⟩ [.nat 1]).wf = false := by decide
theorem test_wf_good : (Instr.emit ldi [.reg (reg 16), .nat 165]).wf = true := by decide
/-- An ill-formed term has no meaning and an ill-typed record does not decode (log 4). -/
theorem test_wf_no_meaning :
    exec (.emit ldi []) State.reset = .refused .illTypedCommand ∧
    decode ⟨0x48#8, { zero with entry := ldi }⟩ = .error .illTypedOperands := ⟨rfl, by decide⟩

/-! ## Decoding: each selector of rule R62 in bits, with operands -/

theorem test_decode_offAbs : decode ⟨0b00000000#8, { zero with addr := 0x20000#32 }⟩ = .ok (.offAbs 0x20000#32) := by decide
theorem test_decode_offRel : decode ⟨0b00000001#8, { zero with bytes := BitVec.ofInt 32 (-6) }⟩ = .ok (.offRel (BitVec.ofInt 32 (-6))) := by decide
theorem test_decode_amPlain : decode ⟨0b00000010#8, { zero with pair := pairOf 27 26 }⟩ = .ok (.amPlain (pairOf 27 26)) := by decide
theorem test_decode_amPreDec : decode ⟨0b00000011#8, { zero with pair := pairOf 29 28 }⟩ = .ok (.amPreDec (pairOf 29 28)) := by decide
theorem test_decode_amPostInc : decode ⟨0b00000100#8, { zero with pair := pairOf 31 30 }⟩ = .ok (.amPostInc (pairOf 31 30)) := by decide
theorem test_decode_amDisp : decode ⟨0b00000101#8, { zero with pair := pairOf 29 28, q := 63 }⟩ = .ok (.amDisp (pairOf 29 28) 63) := by decide
theorem test_decode_encReg5 : decode ⟨0b00010000#8, { zero with reg := reg 17 }⟩ = .ok (.encReg5 (reg 17)) := by decide
theorem test_decode_encReg4 : decode ⟨0b00010001#8, { zero with reg := reg 20 }⟩ = .ok (.encReg4 (reg 20)) := by decide
theorem test_decode_encReg3 : decode ⟨0b00010010#8, { zero with reg := reg 18 }⟩ = .ok (.encReg3 (reg 18)) := by decide
theorem test_decode_encReg10 : decode ⟨0b00010011#8, { zero with reg := reg 31 }⟩ = .ok (.encReg10 (reg 31)) := by decide
theorem test_decode_encPair : decode ⟨0b00010100#8, { zero with pair := pairOf 25 24, width := ⟨1⟩ }⟩ = .ok (.encPair (pairOf 25 24) ⟨1⟩) := by decide
theorem test_decode_encUimm : decode ⟨0b00010101#8, { zero with natural := 165, width := ⟨7⟩ }⟩ = .ok (.encUimm 165 ⟨7⟩) := by decide
theorem test_decode_encSoff : decode ⟨0b00010110#8, { zero with integer := BitVec.ofInt 32 (-3), width := ⟨6⟩ }⟩ = .ok (.encSoff (BitVec.ofInt 32 (-3)) ⟨6⟩) := by decide
theorem test_decode_encFixed : decode ⟨0b00010111#8, { zero with pair := pairOf 31 30 }⟩ = .ok (.encFixed (pairOf 31 30)) := by decide
theorem test_decode_resAbs : decode ⟨0b00100000#8, { zero with offset := rel (-3) }⟩ = .ok (.resAbs (rel (-3))) := by decide
theorem test_decode_resAbs2 : decode ⟨0b00100001#8, { zero with offset := abs 6 }⟩ = .ok (.resAbs2 (abs 6)) := by decide
theorem test_decode_resRel : decode ⟨0b00100010#8, { zero with offset := abs 6 }⟩ = .ok (.resRel (abs 6)) := by decide
theorem test_decode_pack : decode ⟨0b00110000#8, { zero with fields := [⟨letterD, 1, 5⟩], template := addTemplate }⟩ = .ok (.pack [⟨letterD, 1, 5⟩] addTemplate) := by decide
theorem test_decode_selMode : decode ⟨0b01000000#8, { zero with cls := .store, mode := .preDec (pairOf 29 28) }⟩ = .ok (.selMode .store (.preDec (pairOf 29 28))) := by decide
theorem test_decode_selDisp : decode ⟨0b01000001#8, { zero with cls := .pmread, mode := .disp (pairOf 29 28) 5 }⟩ = .ok (.selDisp .pmread (.disp (pairOf 29 28) 5)) := by decide
theorem test_decode_emit : decode ⟨0b01001000#8, { zero with entry := ldi, operands := [.reg (reg 16), .nat 165] }⟩ = .ok (.emit ldi [.reg (reg 16), .nat 165]) := by decide
theorem test_decode_emitMode : decode ⟨0b01001001#8, { zero with cls := .store, reg := reg 31, mode := .preDec (pairOf 29 28) }⟩ = .ok (.emitMode .store (reg 31) (.preDec (pairOf 29 28))) := by decide
theorem test_decode_emitDisp : decode ⟨0b01001010#8, { zero with cls := .store, reg := reg 2, mode := .disp (pairOf 31 30) 1 }⟩ = .ok (.emitDisp .store (reg 2) (.disp (pairOf 31 30) 1)) := by decide
theorem test_decode_reset : decode ⟨0b01110000#8, zero⟩ = .ok .reset := by decide
theorem test_decode_rdlen : decode ⟨0b01110001#8, zero⟩ = .ok .rdlen := by decide
theorem test_decode_rdout : decode ⟨0b01110010#8, { zero with start := 2, count := 100 }⟩ = .ok (.rdout 2 100) := by decide
theorem test_decode_rdstat : decode ⟨0b01110011#8, zero⟩ = .ok .rdstat := by decide
/-- V60-14: the reserved selectors it lists, refused by name. -/
theorem test_decode_reserved :
    ∀ op ∈ [0x06#8, 0x18#8, 0x23#8, 0x31#8, 0x42#8, 0x4B#8, 0x74#8, 0xFF#8],
      decode ⟨op, zero⟩ = .error (.reservedSelector op) := by decide
/-- A table word is the selector alone (rule R62, D2; log 12). -/
theorem test_table_words :
    decodeTableWord 8 0x48 = some (.emit ⟨"", [], ""⟩ []) ∧ decodeTableWord 8 0x06 = none ∧
    decodeTableWord 16 0x48 = none := by decide

/-! ## Operand model -/

/-- V40-3 -/
theorem test_offAbs_odd : view (exec (.offAbs 0xFFFFFFFF#32) State.reset) = okView [] (.offset (abs 0xFFFFFFFF)) := by decide
/-- V40-12 -/
theorem test_offRel_least :
    view (exec (.offRel (BitVec.ofInt 32 (-2147483648))) State.reset) = okView [] (.offset (rel (-1073741824))) := by decide
/-- V40-13 -/
theorem test_offRel_odd : view (exec (.offRel 2147483647#32) State.reset) = faultView [] .deltaOdd := by decide
/-- V40-20 -/
theorem test_amPlain_invalid : view (exec (.amPlain (pairOf 2 1)) State.reset) = okView [] (.mode (.plain (pairOf 2 1))) := by decide
/-- V40-15 -/
theorem test_amPreDec : view (exec (.amPreDec (pairOf 29 28)) State.reset) = okView [] (.mode (.preDec (pairOf 29 28))) := by decide
/-- V40-19 -/
theorem test_amPostInc : view (exec (.amPostInc (pairOf 25 24)) State.reset) = okView [] (.mode (.postInc (pairOf 25 24))) := by decide
/-- V40-18 -/
theorem test_amDisp_large : view (exec (.amDisp (pairOf 29 28) 64) State.reset) = okView [] (.mode (.disp (pairOf 29 28) 64)) := by decide

/-! ## Operand encoder -/

/-- V41-3 -/
theorem test_encReg5_last : view (exec (.encReg5 (reg 31)) State.reset) = okView [] (.pattern 31 5) := by decide
/-- V41-4 -/
theorem test_encReg5_range : view (exec (.encReg5 (reg 32)) State.reset) = faultView [] .regRange := by decide
/-- V41-6 -/
theorem test_encReg4_last : view (exec (.encReg4 (reg 31)) State.reset) = okView [] (.pattern 15 4) := by decide
/-- V41-7 -/
theorem test_encReg4_range : view (exec (.encReg4 (reg 15)) State.reset) = faultView [] .regRange := by decide
/-- V41-8 -/
theorem test_encReg3_last : view (exec (.encReg3 (reg 23)) State.reset) = okView [] (.pattern 7 3) := by decide
/-- V41-9 -/
theorem test_encReg3_range : view (exec (.encReg3 (reg 24)) State.reset) = faultView [] .regRange := by decide
/-- V41-13 -/
theorem test_encReg10_split : view (exec (.encReg10 (reg 17)) State.reset) = okView [] (.pattern 0x311 10) := by decide
/-- V41-11 -/
theorem test_encReg10_low : view (exec (.encReg10 (reg 15)) State.reset) = okView [] (.pattern 0x0FF 10) := by decide
/-- V41-24, `N` = 2: the result is not masked. -/
theorem test_encPair_unmasked : view (exec (.encPair (pairOf 25 24) ⟨1⟩) State.reset) = okView [] (.pattern 12 2) := by decide
/-- V41-35: the range is tested before the shape. -/
theorem test_encPair_order : view (exec (.encPair (pairOf 32 31) ⟨3⟩) State.reset) = faultView [] .regRange := by decide
/-- V41-43 -/
theorem test_encUimm_last : view (exec (.encUimm 63 ⟨5⟩) State.reset) = okView [] (.pattern 0x3F 6) := by decide
/-- V41-44 -/
theorem test_encUimm_range : view (exec (.encUimm 64 ⟨5⟩) State.reset) = faultView [] .immRange := by decide
/-- V41-53 -/
theorem test_encSoff_least : view (exec (.encSoff (BitVec.ofInt 32 (-64)) ⟨6⟩) State.reset) = okView [] (.pattern 0x40 7) := by decide
/-- V41-58 -/
theorem test_encSoff_one_bit : view (exec (.encSoff 1#32 ⟨0⟩) State.reset) = faultView [] .soffRange := by decide
/-- V41-60 -/
theorem test_encFixed : view (exec (.encFixed (pairOf 31 30)) State.reset) = okView [] .nothing := by decide
/-- V41-63 -/
theorem test_encFixed_reversed : view (exec (.encFixed (pairOf 30 31)) State.reset) = faultView [] .fixedMismatch := by decide

/-! ## Offset resolver -/

/-- V43-17 -/
theorem test_resAbs_relative : (after (exec (.resAbs (rel (-3))) (sized 10))).response = some (.ok (.u32 7#32)) := by decide
/-- V43-22 -/
theorem test_resAbs_long : resAbs 4294967296 (rel (-1)) = .error .offsetRange := by decide
theorem test_resAbs_below : view (exec (.resAbs (rel (-1))) State.reset) = faultView [] .offsetRange := by decide
/-- V43-10 -/
theorem test_resAbs2_last : view (exec (.resAbs2 (abs 0xFFFFFFFE)) State.reset) = okView [] (.u32 2147483647#32) := by decide
/-- V43-6 -/
theorem test_resAbs2_odd : (after (exec (.resAbs2 (abs 7)) (sized 10))).cause = .absOdd := by decide
/-- V43-2 (S8): a byte difference, not halved. -/
theorem test_resRel_absolute :
    (after (exec (.resRel (abs 6)) (sized 10))).response = some (.ok (.i32 (BitVec.ofInt 32 (-4)))) := by decide
/-- V43-22: the inner RES.ABS faults. -/
theorem test_resRel_inner : view (exec (.resRel (rel (-1))) State.reset) = faultView [] .offsetRange := by decide

/-! ## Template packer -/

/-- V42-9: two interleaved fields. -/
theorem test_pack_interleaved :
    view (exec (.pack [⟨⟨false, 0⟩, 0b1011, 4⟩, ⟨⟨false, 1⟩, 0b0110, 4⟩] "ab00 ab11 ab01 ab10") State.reset)
      = appendView [0xDA#8, 0x87#8] := by decide
/-- V42-12: a field in both words, words in template order, each low byte first. -/
theorem test_pack_two_words :
    view (exec (.pack [⟨letterk, 0x91A2B, 22⟩] callTemplate) State.reset)
      = appendView [0x4F#8, 0x94#8, 0x2B#8, 0x1A#8] := by decide

/-! ## Addressing-mode dispatcher -/

/-- V44-10 -/
theorem test_selMode_invalid_cell : view (exec (.selMode .pmread (.preDec (pairOf 31 30))) State.reset) = faultView [] .modeInvalid := by decide
/-- V44-1 -/
theorem test_selMode_load :
    view (exec (.selMode .load (.postInc (pairOf 27 26))) State.reset)
      = okView [] (.modeEntry ⟨"1001 000d dddd 1101", letterD⟩) := by decide
/-- V44-22 -/
theorem test_selDisp_load :
    view (exec (.selDisp .load (.disp (pairOf 29 28) 5)) State.reset)
      = okView [] (.dispEntry ⟨"10q0 qq0d dddd 1qqq", letterD, letterQ⟩) := by decide
/-- V44-21: the pair is tested before the displacement. -/
theorem test_selDisp_order : view (exec (.selDisp .load (.disp (pairOf 27 26) 64)) State.reset) = faultView [] .modeInvalid := by decide

/-! ## Composite encode commands -/

/-- V45-28 (S8): ten bytes in the buffer, absolute target 6. -/
theorem test_emit_rjmp :
    ((after (exec (.emit rjmp [.offset (abs 6)]) (sized 10))).out.map Prod.snd).drop 10 = [0xFC#8, 0xCF#8] := by decide
/-- V45-15: a two-bit pair field receives the low bits of `low.id / 2`. -/
theorem test_emit_adiw :
    view (exec (.emit ⟨"adiw", [.pair letterD, .uimm letterK], "1001 0110 KKdd KKKK"⟩ [.pair (pairOf 27 26), .nat 63]) State.reset)
      = appendView [0xDF#8, 0x96#8] := by decide
/-- V45-52 -/
theorem test_emitMode_store :
    view (exec (.emitMode .store (reg 31) (.preDec (pairOf 29 28))) State.reset) = appendView [0xFA#8, 0x93#8] := by decide
/-- V60-13: the selection's fault comes first. -/
theorem test_emitMode_order :
    view (exec (.emitMode .pmread (reg 32) (.preDec (pairOf 31 30))) State.reset) = faultView [] .modeInvalid := by decide
/-- V45-55 -/
theorem test_emitDisp_load :
    view (exec (.emitDisp .load (reg 5) (.disp (pairOf 29 28) 37)) State.reset) = appendView [0x5D#8, 0xA0#8] := by decide
/-- V60-12 -/
theorem test_emitDisp_order :
    view (exec (.emitDisp .load (reg 32) (.disp (pairOf 29 28) 64)) State.reset) = faultView [] .immRange := by decide

/-! ## Control and read-out -/

/-- V45-74: RESET leaves the faulted state. -/
theorem test_reset_faulted : view (exec .reset faulted) = okView [] .nothing := by decide
/-- P6, steps 2 and 3: the position is still 2. -/
theorem test_rdlen_faulted : (after (exec .rdlen faulted)).response = some (.ok (.length 2)) := by decide
/-- V45-72, and V45-71's range beyond the end. -/
theorem test_rdout_partial :
    (after (exec (.rdout 1 1) otherBytes)).response = some (.ok (.bytes [0xCD#8])) ∧
    (after (exec (.rdout 1 100) otherBytes)).response = some (.ok (.bytes [0xCD#8])) := by decide
/-- V45-74 and P6: `STATUS` after PAIR_INVALID is 0x07. -/
theorem test_rdstat_faulted : (after (exec .rdstat faulted)).response = some (.ok (.status 0x07#8)) := by decide
/-- V60-22: the first cause is kept, and the second command is refused. -/
theorem test_first_cause_kept :
    view (exec (.encReg4 (reg 3)) faulted) = some ([0#8, 0#8], true, .pairInvalid, some (.refused .pairInvalid)) := by decide
/-- V60-23: a reserved selector faults BAD_COMMAND. -/
theorem test_bad_command : view (step (issuing [⟨0xFF#8, zero⟩])) = faultView [] .badCommand := by decide
/-- A placed selector is the next command (log 12). -/
theorem test_place : step (State.reset.withFetchWord 8 0x73) = exec .rdstat State.reset := rfl

/-! ## Helpers of the witnesses -/

theorem sized_len (n : Nat) : (sized n).len = n := by
  have h : ∀ (start : Nat) (bs : List Byte), (Memory.cells start bs).length = bs.length := by
    intro start bs
    induction bs generalizing start with
    | nil => rfl
    | cons b bs ih => simp [Memory.cells, ih]
  simp [State.len, sized, h]

theorem lettersMatch_of (xs : List Letter) (items : List Item) (h1 : noRepeat xs = true)
    (h2 : sameLetters xs items = true) : lettersMatch xs items :=
  ⟨(noRepeat_iff _).mp h1, (sameLetters_iff _ _).mp h2⟩

theorem not_lettersMatch_of (xs : List Letter) (items : List Item) (h : sameLetters xs items = false) :
    ¬ lettersMatch xs items := by
  intro hl
  rw [(sameLetters_iff _ _).mpr hl.2] at h
  cases h

/-! ## Witnesses: the hypotheses of each statement can be met -/

/-- A PACK that succeeds and an ENC.REG5 that faults. -/
def goodPack : Instr := .pack [⟨letterD, 1, 5⟩, ⟨letterR, 17, 5⟩] addTemplate
def badReg : Instr := .encReg5 (reg 32)

theorem witness_StepKeepsInvariant :
    Inv { sized 2 with commands := [encode badReg] } ∧
    step { sized 2 with commands := [encode badReg] } = .next (raiseFault .regRange (sized 2)) := ⟨by decide, rfl⟩
theorem witness_OutputOnlyGrowsAlongRuns :
    (∀ c ∈ (issuing [encode goodPack, encode badReg]).commands, c.op ≠ 0x70#8) ∧
    (runFor 2 (issuing [encode goodPack, encode badReg])).map State.len = some 2 := by decide
theorem witness_OutputIsAppendOnly :
    goodPack ≠ .reset ∧ exec goodPack otherBytes = .next (after (exec goodPack otherBytes)) := ⟨by decide, rfl⟩
theorem witness_OnlyReadOutSeesContents :
    (∀ addr n, goodPack ≠ .rdout addr n) ∧ (sized 2).len = otherBytes.len ∧ (sized 2).fault = otherBytes.fault ∧
    (sized 2).cause = otherBytes.cause ∧ (sized 2).out ≠ otherBytes.out ∧
    exec goodPack (sized 2) = .next (after (exec goodPack (sized 2))) ∧
    exec goodPack otherBytes = .next (after (exec goodPack otherBytes)) :=
  ⟨nofun, by decide, rfl, rfl, by decide, rfl, rfl⟩
theorem witness_StepRunsDecoded :
    (issuing [encode goodPack]).commands = encode goodPack :: [] ∧ decode (encode goodPack) = .ok goodPack ∧
    State.reset.commands = [] := ⟨rfl, by decide, rfl⟩
theorem witness_ReservedSelectorFaults :
    0x06#8 ∉ tableSelectors ∧ 0xFF#8 ∉ tableSelectors ∧ (issuing [⟨0x06#8, zero⟩]).commands = ⟨0x06#8, zero⟩ :: [] ∧
    (issuing [⟨0x06#8, zero⟩]).fault = false := by decide
theorem witness_DecodeEncodeAgree :
    goodPack.wf = true ∧ decode (encode goodPack) = .ok goodPack ∧
    decode ⟨0x74#8, zero⟩ = .error (.reservedSelector 0x74#8) ∧
    decode ⟨0x48#8, { zero with entry := ldi }⟩ = .error .illTypedOperands := by decide
theorem witness_EveryCommandAnswers :
    goodPack.wf = true ∧ (Instr.emit ldi []).wf = false ∧ State.reset.fault = false := by decide
/-- One response of each status. -/
theorem witness_ResponseTellsWhatHappened :
    exec .rdlen faulted = .next (after (exec .rdlen faulted)) ∧
    ((after (exec .rdlen faulted)).response.map Response.status = some .ok) ∧
    ((after (exec badReg (sized 2))).response.map Response.status = some .fault) ∧
    ((after (exec badReg faulted)).response.map Response.status = some .refused) := ⟨rfl, rfl, rfl, rfl⟩
theorem witness_FaultEntryTouchesOnlyTheFaultRecord :
    (sized 2).fault = false ∧ exec badReg (sized 2) = .next (after (exec badReg (sized 2))) ∧
    (after (exec badReg (sized 2))).fault = true ∧
    rejectCommand (.reservedSelector 0x06#8) (sized 2) = .next (raiseFault .badCommand (sized 2)) :=
  ⟨rfl, rfl, by decide, rfl⟩
theorem witness_FaultedStateRefuses : faulted.fault = true ∧ isControl goodPack = false := ⟨rfl, rfl⟩
theorem witness_OnlyResetLeavesTheFaultedState :
    (placeCommand (encode .reset) faulted).fault = true ∧
    (after (step (placeCommand (encode .reset) faulted))).fault = false ∧
    (after (step (placeCommand (encode goodPack) faulted))).fault = true := by decide
theorem witness_FaultMatrix :
    State.reset.fault = false ∧ exec badReg State.reset = .next (raiseFault .regRange State.reset) ∧
    (raiseFault .regRange State.reset).fault = true := ⟨rfl, rfl, rfl⟩
theorem witness_CauseCodes : Cause.code .badCommand = 16#5 := rfl
theorem witness_OkRunsEndUnfaulted :
    (issuing [encode goodPack, encode .rdlen]).fault = false ∧
    (okRun 2 (issuing [encode goodPack, encode .rdlen])).map State.len = some 2 := by decide
theorem witness_NonAppendingFrame :
    isAppending .rdlen = false ∧ Instr.rdlen ≠ .reset ∧ isAppending badReg = false ∧ badReg ≠ .reset ∧
    exec .rdlen faulted = .next (after (exec .rdlen faulted)) ∧
    exec badReg (sized 2) = .next (after (exec badReg (sized 2))) :=
  ⟨rfl, by decide, rfl, by decide, rfl, rfl⟩
/-- One that stores two bytes, one that stores four, and one that faults. -/
theorem witness_AppendingFrame :
    isAppending goodPack = true ∧ (sized 2).fault = false ∧ exec goodPack (sized 2) = .next (after (exec goodPack (sized 2))) ∧
    (storedBytes goodPack (sized 2)).length = 2 ∧
    (storedBytes (.pack [⟨letterk, 0, 22⟩] callTemplate) (sized 2)).length = 4 ∧
    storedBytes (.pack [] addTemplate) (sized 2) = [] := ⟨rfl, rfl, rfl, by decide, by decide, by decide⟩
theorem witness_SuccessfulAppendEffect :
    isAppending goodPack = true ∧ Inv (sized 2) ∧ (sized 2).fault = false ∧
    exec goodPack (sized 2) = .next (after (exec goodPack (sized 2))) ∧
    (after (exec goodPack (sized 2))).fault = false := ⟨rfl, by decide, rfl, rfl, by decide⟩
/-- An appending command of each other form has the template of its entry: one word or two. -/
theorem witness_SuccessfulAppendEffect_template :
    templateOf? (.emit ldi [.reg (reg 16), .nat 165]) = some ldi.template ∧
    templateOf? (.emitMode .load (reg 1) (.postInc (pairOf 27 26))) = some "1001 000d dddd 1101" ∧
    templateOf? (.emitDisp .load (reg 1) (.disp (pairOf 29 28) 63)) = some "10q0 qq0d dddd 1qqq" ∧
    (itemsOf ldi.template).length = 16 * 1 ∧ (itemsOf callTemplate).length = 16 * 2 := by decide
/-- Both parities, at the ends of `i32`. -/
theorem witness_OffsetRelativeHalvesEvenDeltas :
    (BitVec.ofInt 32 (-2147483648)).toInt % 2 = 0 ∧ (BitVec.ofInt 32 2147483647).toInt % 2 ≠ 0 := by decide
/-- For the statements whose one hypothesis is that no fault is recorded: OffsetAbsoluteAcceptsAll and
ModeConstructorsNeverFault. -/
theorem witness_OffsetAbsoluteAcceptsAll : State.reset.fault = false := rfl
theorem witness_EncodeRegisterFiveBits : (reg 31).id.toNat ≤ 31 ∧ 32 ≤ (reg 32).id.toNat := by decide
theorem witness_EncodeRegisterFourBits :
    (16 ≤ (reg 16).id.toNat ∧ (reg 16).id.toNat ≤ 31) ∧ (16 ≤ (reg 31).id.toNat ∧ (reg 31).id.toNat ≤ 31) ∧
    (reg 15).id.toNat ≤ 15 ∧ 32 ≤ (reg 32).id.toNat := by decide
theorem witness_EncodeRegisterThreeBits :
    (16 ≤ (reg 16).id.toNat ∧ (reg 16).id.toNat ≤ 23) ∧ (16 ≤ (reg 23).id.toNat ∧ (reg 23).id.toNat ≤ 23) ∧
    (reg 15).id.toNat ≤ 15 ∧ 24 ≤ (reg 24).id.toNat := by decide
theorem witness_EncodeRegisterSplitLayout : (reg 31).id.toNat ≤ 31 ∧ 32 ≤ (reg 32).id.toNat := by decide
/-- One input per branch: V41-36, V41-32, V41-39, V41-26 at `N` = 1. -/
theorem witness_EncodePair :
    exec (.encPair (pairOf 33 32) ⟨0⟩) State.reset = faults State.reset .regRange ∧
    exec (.encPair (pairOf 4 2) ⟨0⟩) State.reset = faults State.reset .pairInvalid ∧
    exec (.encPair (pairOf 27 26) ⟨0⟩) State.reset = faults State.reset .pairRange ∧
    exec (.encPair (pairOf 29 28) ⟨0⟩) State.reset = answers State.reset (.pattern 14 1) := ⟨rfl, rfl, rfl, rfl⟩
/-- V41-24, V41-20 and V41-27: `N` = 2, 4 and 5; at 4 both clauses hold. -/
theorem witness_EncodePair_field :
    (validPair (pairOf 25 24) = true ∧ (32 : Int) - 2 * 2 ^ (Width.bits ⟨1⟩) ≤ 24 ∧ Width.bits ⟨1⟩ ≤ 4) ∧
    (validPair (pairOf 1 0) = true ∧ (32 : Int) - 2 * 2 ^ (Width.bits ⟨3⟩) ≤ 0 ∧ 4 ≤ Width.bits ⟨3⟩) ∧
    (validPair (pairOf 31 30) = true ∧ (32 : Int) - 2 * 2 ^ (Width.bits ⟨4⟩) ≤ 30 ∧ 4 ≤ Width.bits ⟨4⟩) := by decide
theorem witness_EncodeUnsignedImmediate : 63 < 2 ^ (Width.bits ⟨5⟩) ∧ 2 ^ (Width.bits ⟨5⟩) ≤ 64 := by decide
/-- V41-52 and V41-53. -/
theorem witness_EncodeSignedOffset :
    (-(2 : Int) ^ (Width.bits ⟨6⟩ - 1) ≤ (BitVec.ofInt 32 (-64)).toInt ∧
      (BitVec.ofInt 32 63).toInt < (2 : Int) ^ (Width.bits ⟨6⟩ - 1)) ∧
    (BitVec.ofInt 32 (-65)).toInt < -(2 : Int) ^ (Width.bits ⟨6⟩ - 1) ∧
    (2 : Int) ^ (Width.bits ⟨6⟩ - 1) ≤ (BitVec.ofInt 32 64).toInt := by decide
theorem witness_EncodeFixedPair : pairOf 31 30 = params.fixedPair ∧ pairOf 30 31 ≠ params.fixedPair := by decide
/-- `Rel(-10)` at 10 is 0, `Rel(-1)` at 0 is below 0; V43-26 and V43-25 at the upper end. -/
theorem witness_ResolveAbsolute :
    (0 ≤ ((sized 10).len : Int) + (BitVec.ofInt 32 (-10)).toInt) ∧
    ((sized 0).len : Int) + (BitVec.ofInt 32 (-1)).toInt < 0 := by decide
theorem witness_ResolveAbsolute_top :
    (sized 4294967292).len < 2 ^ 32 ∧
    ((sized 4294967292).len : Int) + (BitVec.ofInt 32 2).toInt < 2 ^ 32 ∧
    2 ^ 32 ≤ ((sized 4294967292).len : Int) + (BitVec.ofInt 32 5).toInt := by
  rw [sized_len]
  decide
/-- The last sentence of R145 at its first `LEN`, with a sum inside `u32`. -/
theorem witness_ResolveAbsolute_long :
    2 ^ 32 ≤ (sized 4294967296).len ∧ ((sized 4294967296).len : Int) + (BitVec.ofInt 32 (-1)).toInt < 2 ^ 32 := by
  rw [sized_len]
  decide
theorem witness_ResolveAbsoluteHalved :
    ¬ Resolves (sized 0).len (rel (-1)) ∧
    (Resolves (sized 0).len (abs 0xFFFFFFFF) ∧ offsetTarget (sized 0).len (abs 0xFFFFFFFF) % 2 ≠ 0) ∧
    (Resolves (sized 0).len (abs 0) ∧ offsetTarget (sized 0).len (abs 0) % 2 = 0) := by decide
/-- V43-11 and V43-12: the last difference that fits and the first that does not. -/
theorem witness_ResolveRelative :
    (Resolves (sized 10).len (abs 0x80000009) ∧ offsetTarget (sized 10).len (abs 0x80000009) - (sized 10).len < 2 ^ 31) ∧
    ¬ offsetTarget (sized 10).len (abs 0x8000000A) - (sized 10).len < 2 ^ 31 := by decide
/-- At `LEN` = 2^32 RES.ABS2 and RES.REL fault on `Rel(-2)`, whose sum is inside `u32`. -/
theorem witness_Resolve_long : ¬ Resolves (sized 4294967296).len (rel (-2)) := by
  rw [sized_len]
  decide
theorem witness_PackAppendsWords_one :
    parseTemplate addTemplate = .ok (itemsOf addTemplate) ∧
    lettersMatch (fieldLetters [⟨letterD, 1, 5⟩, ⟨letterR, 17, 5⟩]) (itemsOf addTemplate) ∧
    (∀ f ∈ [PackField.mk letterD 1 5, ⟨letterR, 17, 5⟩], f.width = letterCount (itemsOf addTemplate) f.letter) ∧
    (itemsOf addTemplate).length = 16 :=
  ⟨by decide, lettersMatch_of _ _ (by decide) (by decide), by decide, by decide⟩
theorem witness_PackAppendsWords_two :
    parseTemplate callTemplate = .ok (itemsOf callTemplate) ∧
    lettersMatch (fieldLetters [⟨letterk, 0, 22⟩]) (itemsOf callTemplate) ∧
    (∀ f ∈ [PackField.mk letterk 0 22], f.width = letterCount (itemsOf callTemplate) f.letter) ∧
    (itemsOf callTemplate).length = 32 :=
  ⟨by decide, lettersMatch_of _ _ (by decide) (by decide), by decide, by decide⟩
/-- V42-39, V42-34, V42-38 and V42-31: one input per clause. -/
theorem witness_PackFaultsInOrder :
    (∃ c ∈ "0000 11rd dddd rrr-".toList, ¬ legalChar c) ∧
    ¬ lettersMatch (fieldLetters [⟨letterD, 1, 5⟩]) (itemsOf addTemplate) ∧
    (lettersMatch (fieldLetters [⟨letterD, 1, 4⟩, ⟨letterR, 17, 5⟩]) (itemsOf addTemplate) ∧
      ∃ f ∈ [PackField.mk letterD 1 4, ⟨letterR, 17, 5⟩], f.width ≠ letterCount (itemsOf addTemplate) f.letter) ∧
    (lettersMatch (fieldLetters []) (itemsOf "0000 0000 0000 0000 0") ∧
      (itemsOf "0000 0000 0000 0000 0").length = 17) :=
  ⟨⟨'-', by decide, by unfold legalChar; decide⟩, not_lettersMatch_of _ _ (by decide),
    ⟨lettersMatch_of _ _ (by decide) (by decide), by decide⟩,
    ⟨lettersMatch_of _ _ (by decide) (by decide), by decide⟩⟩
theorem witness_TemplateParsesIffLegal : parseTemplate "a1 0" = .ok [.field ⟨false, 0⟩, .lit true, .lit false] := by decide
/-- `K` and `k` are two designators (rule R51, D9). -/
theorem witness_TemplateParsesIffLegal_case :
    itemOf? 'K' = some (.field ⟨true, 10⟩) ∧ itemOf? 'k' = some (.field ⟨false, 10⟩) ∧ 'K' ≠ 'k' := by decide
theorem witness_PackRoundTrip :
    parseTemplate callTemplate = .ok (itemsOf callTemplate) ∧
    packBytes [⟨letterk, 0x91A2B, 22⟩] callTemplate = .ok [0x4F#8, 0x94#8, 0x2B#8, 0x1A#8] := by decide
/-- V42-6 and V42-4. -/
theorem witness_PackIgnoresOrderAndSpacing :
    [PackField.mk letterD 1 5, ⟨letterR, 17, 5⟩].Perm [⟨letterR, 17, 5⟩, ⟨letterD, 1, 5⟩] ∧
    "0000 11rd dddd rrrr".toList.filter (fun c => c != ' ') = "000011rd ddddrrrr".toList.filter (fun c => c != ' ') := by decide
theorem witness_PackDependsOnOperandsOnly : (sized 2).fault = false ∧ otherBytes.fault = false := ⟨rfl, rfl⟩
theorem witness_SelectMode :
    params.modeTable .load .A .postInc = some ⟨"1001 000d dddd 1101", letterD⟩ ∧
    params.modeTable .pmread .C .preDec = none ∧ (∀ i, pairOf 25 24 ≠ params.idx i) :=
  ⟨rfl, rfl, by intro i; cases i <;> decide⟩
theorem witness_SelectDisplacement :
    IndexName.B ∈ params.dispPairs ∧ params.dispTable .load .B = some ⟨"10q0 qq0d dddd 1qqq", letterD, letterQ⟩ ∧
    IndexName.A ∉ params.dispPairs ∧ params.dispTable .pmread .C = none ∧ (∀ i, pairOf 26 27 ≠ params.idx i) :=
  ⟨by decide, rfl, by decide, rfl, by intro i; cases i <;> decide⟩
theorem witness_SelectionFollowsAnyTables :
    params.idx .A ≠ params.idx .B ∧ params.idx .A ≠ params.idx .C ∧ params.idx .B ≠ params.idx .C := by decide
theorem witness_RightTablesRaiseNoTemplateFault :
    paramsOk params = true ∧
    emitModeBytes params 0 .load (reg 32) (.plain (pairOf 27 26)) = .error .regRange ∧
    emitDispBytes params 0 .load (reg 5) (.disp (pairOf 29 28) 64) = .error .immRange := by decide
theorem witness_validated : validated [.reg letterD (reg 16), .uimm letterK 165] ldi.template :=
  ⟨itemsOf ldi.template, by decide, by decide, lettersMatch_of _ _ (by decide) (by decide), by
    intro x r h
    simp only [List.mem_cons, List.not_mem_nil, or_false, reduceCtorEq, TypedSlot.reg.injEq] at h
    rw [h.1]
    decide⟩
theorem witness_EmitAppendsEncodedOperands :
    bindSlots ldi.slots [.reg (reg 16), .nat 165] = some [.reg letterD (reg 16), .uimm letterK 165] ∧
    validated [.reg letterD (reg 16), .uimm letterK 165] ldi.template ∧
    parseTemplate ldi.template = .ok (itemsOf ldi.template) ∧
    allFields? params 0 (letterCount (itemsOf ldi.template)) [.reg letterD (reg 16), .uimm letterK 165]
      = some [⟨letterD, 0, 4⟩, ⟨letterK, 165, 8⟩] := ⟨by decide, witness_validated, by decide, by decide⟩
theorem witness_SlotsFollowTheOperandTable :
    (∀ x, slotLetter? (.pair letterD (pairOf 25 24)) = some x → 1 ≤ (fun _ : Letter => 2) x) ∧
    slotFields? params 0 (fun _ => 2) (.pair letterD (pairOf 25 24)) = some [⟨letterD, 0, 2⟩] ∧
    slotFields? params 0 (fun _ => 2) (.pair letterD (pairOf 23 22)) = none :=
  ⟨fun _ _ => Nat.le_succ 1, by decide, by decide⟩
/-- V60-1, V60-2, V60-5 and V60-4: one input per clause. -/
theorem witness_EmitFaultsInOrder :
    (∃ c ∈ "0000 11rd dddd rrr?".toList, ¬ legalChar c) ∧
    ¬ lettersMatch (slotLetters [.reg letterD (reg 99)]) (itemsOf addTemplate) ∧
    (lettersMatch (slotLetters [.reg letterD (reg 15), .uimm letterK 256]) (itemsOf ldi.template) ∧
      encodeSlots params 0 (letterCount (itemsOf ldi.template)) [] = .ok [] ∧
      encodeSlot params 0 (letterCount (itemsOf ldi.template)) (.reg letterD (reg 15)) = .error .regRange) ∧
    (lettersMatch (slotLetters [.reg letterD (reg 1), .reg letterR (reg 2)]) (itemsOf "0000 11rd dddd rrrr 0") ∧
      encodeSlots params 0 (letterCount (itemsOf "0000 11rd dddd rrrr 0")) [.reg letterD (reg 1), .reg letterR (reg 2)]
        = .ok [⟨letterD, 1, 5⟩, ⟨letterR, 2, 5⟩] ∧ (itemsOf "0000 11rd dddd rrrr 0").length = 17) :=
  ⟨⟨'?', by decide, by unfold legalChar; decide⟩, not_lettersMatch_of _ _ (by decide),
    ⟨lettersMatch_of _ _ (by decide) (by decide), rfl, by decide⟩,
    ⟨lettersMatch_of _ _ (by decide) (by decide), by decide, by decide⟩⟩
theorem witness_EmitEndsAsPack :
    emitFields params 0 [.reg letterD (reg 16), .uimm letterK 165] ldi.template
      = .ok [⟨letterD, 0, 4⟩, ⟨letterK, 165, 8⟩] := by decide
/-- V45-8: a validated entry that still faults, on an operand. -/
theorem witness_ValidatedEntryRaisesNoCatalogFault :
    emitBytes params 0 [.reg letterD (reg 16), .uimm letterK 256] ldi.template = .error .immRange ∧
    validated [.reg letterD (reg 16), .uimm letterK 165] ldi.template := ⟨by decide, witness_validated⟩
theorem witness_EmitModeIsSelectedEmit :
    selMode params .pmread (.postInc (pairOf 27 26)) = .error .modeInvalid ∧
    selMode params .load (.postInc (pairOf 27 26)) = .ok ⟨"1001 000d dddd 1101", letterD⟩ ∧
    31 < (reg 32).id.toNat ∧ (reg 31).id.toNat ≤ 31 := by decide
theorem witness_EmitDispIsSelectedEmit :
    selDisp params .load (.disp (pairOf 29 28) 64) = .error .immRange ∧
    selDisp params .load (.disp (pairOf 29 28) 63) = .ok ⟨"10q0 qq0d dddd 1qqq", letterD, letterQ⟩ ∧
    31 < (reg 32).id.toNat ∧ (reg 31).id.toNat ≤ 31 := by decide
theorem witness_ZeroDisplacementWordEqualsPlain :
    AccessClass.load ≠ .pmread ∧ IndexName.B ≠ .A ∧
    exec (.emitDisp .load (reg 17) (.disp (params.idx .B) 0)) State.reset = appends State.reset [0x18#8, 0x81#8] :=
  ⟨by decide, by decide, rfl⟩
theorem witness_ReadOutput : (sized 2).out.wf = true ∧ otherBytes.out.wf = true := by decide

end Sys2Proof.Tests
end

/-! ## Faults name a cause

The codes of rule R200 from 1 upward are the fault causes; code 0 stands for no fault. No computation
of the block faults with it, so a fault record never reads as no fault. -/

namespace Sys2Proof.Proofs

open Sys2Proof.Machine

/-- The computation faults, if it does, with one of the causes 1 to 16 of rule R200. -/
def NamesCause {α : Type} (e : Except Cause α) : Prop :=
  ∀ c, e = .error c → c ≠ .noFault

section Combinators

variable {α β : Type}

theorem NamesCause.ok (a : α) : NamesCause (.ok a) := nofun

theorem NamesCause.error {c : Cause} (hc : c ≠ .noFault) : NamesCause (.error c : Except Cause α) := by
  rintro d ⟨⟩
  exact hc

theorem NamesCause.bind {e : Except Cause α} {f : α → Except Cause β} (he : NamesCause e)
    (hf : ∀ a, NamesCause (f a)) : NamesCause (e >>= f) := by
  intro c h
  obtain h | ⟨a, -, h⟩ := (bind_eq_error e f c).mp h
  · exact he c h
  · exact hf a c h

theorem NamesCause.map {e : Except Cause α} (he : NamesCause e) (f : α → β) : NamesCause (e.map f) :=
  fun c h => he c ((map_eq_error e f c).mp h)

theorem NamesCause.require (b : Bool) {x : Cause} (hx : x ≠ .noFault) : NamesCause (require b x) := by
  cases b
  · exact .error hx
  · exact .ok ()

/-- A tested condition before the rest of a command. -/
theorem NamesCause.require_bind (b : Bool) {x : Cause} {f : Unit → Except Cause β} (hx : x ≠ .noFault)
    (hf : NamesCause (f ())) : NamesCause (Machine.require b x >>= f) :=
  .bind (.require b hx) fun _ => hf

end Combinators

theorem offRel_namesCause (bytes : I32) : NamesCause (offRel bytes) :=
  .require_bind _ (by decide) (.ok _)

theorem encReg5_namesCause (r : Register) : NamesCause (encReg5 r) :=
  .require_bind _ (by decide) (.ok _)

theorem encReg4_namesCause (r : Register) : NamesCause (encReg4 r) :=
  .require_bind _ (by decide) (.ok _)

theorem encReg3_namesCause (r : Register) : NamesCause (encReg3 r) :=
  .require_bind _ (by decide) (.ok _)

theorem encReg10_namesCause (r : Register) : NamesCause (encReg10 r) :=
  .require_bind _ (by decide) (.ok _)

theorem encReg_namesCause (n : Nat) (r : Register) : NamesCause (encReg n r) := by
  unfold encReg
  split_ifs
  · exact encReg5_namesCause r
  · exact encReg4_namesCause r
  · exact encReg3_namesCause r
  · exact encReg10_namesCause r
  · exact .error (by decide)

theorem encPair_namesCause (p : RegisterPair) (n : Nat) : NamesCause (encPair p n) :=
  .require_bind _ (by decide) (.require_bind _ (by decide) (.require_bind _ (by decide) (.ok _)))

theorem encUimm_namesCause (v n : Nat) : NamesCause (encUimm v n) :=
  .require_bind _ (by decide) (.ok _)

theorem encSoff_namesCause (v : I32) (n : Nat) : NamesCause (encSoff v n) :=
  .require_bind _ (by decide) (.ok _)

theorem encFixed_namesCause (P : Config.Params) (p : RegisterPair) : NamesCause (encFixed P p) :=
  .require _ (by decide)

theorem resAbs_namesCause (len : Nat) (off : Offset) : NamesCause (resAbs len off) :=
  .require_bind _ (by decide) (.ok _)

theorem resAbs2_namesCause (len : Nat) (off : Offset) : NamesCause (resAbs2 len off) :=
  .bind (resAbs_namesCause len off) fun _ => .require_bind _ (by decide) (.ok _)

theorem resRel_namesCause (len : Nat) (off : Offset) : NamesCause (resRel len off) :=
  .bind (resAbs_namesCause len off) fun _ => .require_bind _ (by decide) (.ok _)

theorem orModeInvalid_namesCause {α : Type} (o : Option α) : NamesCause (orModeInvalid o) := by
  intro c h
  rw [((orModeInvalid_eq_error o c).mp h).2]
  decide

theorem selMode_namesCause (P : Config.Params) (cls : AccessClass) (am : AddressingMode) :
    NamesCause (selMode P cls am) :=
  .bind (orModeInvalid_namesCause _) fun _ =>
    .bind (orModeInvalid_namesCause _) fun _ => orModeInvalid_namesCause _

theorem selDisp_namesCause (P : Config.Params) (cls : AccessClass) (am : AddressingMode) :
    NamesCause (selDisp P cls am) :=
  .bind (orModeInvalid_namesCause _) fun _ =>
    .bind (orModeInvalid_namesCause _) fun _ =>
      .require_bind _ (by decide) <|
        .bind (orModeInvalid_namesCause _) fun _ => .require_bind _ (by decide) (.ok _)

theorem parseTemplate_namesCause (t : String) : NamesCause (parseTemplate t) := by
  intro c h
  rw [parseChars_error _ c h]
  decide

theorem packBytes_namesCause (fields : List PackField) (template : String) :
    NamesCause (packBytes fields template) :=
  .bind (parseTemplate_namesCause template) fun _ =>
    .require_bind _ (by decide) <| .require_bind _ (by decide) <|
      .require_bind _ (by decide) <| .require_bind _ (by decide) (.ok _)

theorem encodeSlot_namesCause (P : Config.Params) (len : Nat) (w : Letter → Nat) (sl : TypedSlot) :
    NamesCause (encodeSlot P len w sl) := by
  cases sl with
  | reg x r => exact .map (encReg_namesCause _ r) _
  | pair x p => exact .map (encPair_namesCause p _) _
  | uimm x v => exact .map (encUimm_namesCause v _) _
  | simm x v => exact .map (encSoff_namesCause v _) _
  | rel x o => exact .bind (resRel_namesCause len o) fun r => .map (encSoff_namesCause r _) _
  | abs2 x o => exact .bind (resAbs2_namesCause len o) fun a => .map (encUimm_namesCause a.toNat _) _
  | fixed p => exact .map (encFixed_namesCause P p) _

theorem encodeSlots_namesCause (P : Config.Params) (len : Nat) (w : Letter → Nat)
    (slots : List TypedSlot) : NamesCause (encodeSlots P len w slots) := by
  induction slots with
  | nil => exact .ok []
  | cons sl slots ih => exact .bind (encodeSlot_namesCause P len w sl) fun _ => .bind ih fun _ => .ok _

theorem emitFields_namesCause (P : Config.Params) (len : Nat) (slots : List TypedSlot)
    (template : String) : NamesCause (emitFields P len slots template) :=
  .bind (parseTemplate_namesCause template) fun _ =>
    .require_bind _ (by decide) <| .require_bind _ (by decide) <| encodeSlots_namesCause P len _ slots

theorem emitBytes_namesCause (P : Config.Params) (len : Nat) (slots : List TypedSlot)
    (template : String) : NamesCause (emitBytes P len slots template) :=
  .bind (emitFields_namesCause P len slots template) fun fields => packBytes_namesCause fields template

theorem emitModeBytes_namesCause (P : Config.Params) (len : Nat) (cls : AccessClass) (reg : Register)
    (am : AddressingMode) : NamesCause (emitModeBytes P len cls reg am) :=
  .bind (selMode_namesCause P cls am) fun _ => emitBytes_namesCause P len _ _

theorem emitDispBytes_namesCause (P : Config.Params) (len : Nat) (cls : AccessClass) (reg : Register)
    (am : AddressingMode) : NamesCause (emitDispBytes P len cls reg am) :=
  .bind (selDisp_namesCause P cls am) fun _ => emitBytes_namesCause P len _ _

end Sys2Proof.Proofs

/-! ## What a command computes from

Every command is one of five shapes; apart from the three read-outs and RESET, all it takes from the
state is `LEN`, and the fault record by which `attempt` refuses it. -/

namespace Sys2Proof.Proofs

open Sys2Proof.Machine

/-- Two states with the same `LEN`, `FAULT` and `CAUSE`; the contents of `OUT` may differ. -/
structure SameRecord (s s' : State) : Prop where
  len : s.len = s'.len
  fault : s.fault = s'.fault
  cause : s.cause = s'.cause

/-- How a command's meaning is built from the shared operations of Machine/Ops.lean. -/
inductive Shape (i : Instr) : Prop where
  /-- a pure command, computed from its operands and `LEN` -/
  | pure (r : Nat → Except Cause Value) (hr : ∀ len, NamesCause (r len))
      (h : ∀ s, exec i s = pureCommand s (r s.len))
  /-- an appending command, computed from its operands and `LEN` -/
  | append (r : Nat → Except Cause (List Byte)) (hr : ∀ len, NamesCause (r len))
      (h : ∀ s, exec i s = appendCommand s (r s.len))
  /-- an EMIT whose operands do not fit its slots (log 4) -/
  | illTyped (h : ∀ s, exec i s = attempt s (.refused .illTypedCommand))
  /-- a read-out; RDOUT alone may answer with something outside the record -/
  | read (v : State → Value) (h : ∀ s, exec i s = readCommand s (v s))
      (hv : (∀ addr n, i ≠ .rdout addr n) → ∀ s s', SameRecord s s' → v s = v s')
  /-- RESET -/
  | reset (h : i = .reset)

theorem exec_shape (i : Instr) : Shape i := by
  cases i with
  | offAbs addr => exact .pure (fun _ => .ok (.offset (.absolute addr))) (fun _ => .ok _) fun _ => rfl
  | offRel bytes => exact .pure _ (fun _ => (offRel_namesCause bytes).map _) fun _ => rfl
  | amPlain pair => exact .pure (fun _ => .ok (.mode (.plain pair))) (fun _ => .ok _) fun _ => rfl
  | amPreDec pair => exact .pure (fun _ => .ok (.mode (.preDec pair))) (fun _ => .ok _) fun _ => rfl
  | amPostInc pair => exact .pure (fun _ => .ok (.mode (.postInc pair))) (fun _ => .ok _) fun _ => rfl
  | amDisp pair q => exact .pure (fun _ => .ok (.mode (.disp pair q))) (fun _ => .ok _) fun _ => rfl
  | encReg5 reg => exact .pure _ (fun _ => (encReg5_namesCause reg).map _) fun _ => rfl
  | encReg4 reg => exact .pure _ (fun _ => (encReg4_namesCause reg).map _) fun _ => rfl
  | encReg3 reg => exact .pure _ (fun _ => (encReg3_namesCause reg).map _) fun _ => rfl
  | encReg10 reg => exact .pure _ (fun _ => (encReg10_namesCause reg).map _) fun _ => rfl
  | encPair pair n => exact .pure _ (fun _ => (encPair_namesCause pair n.bits).map _) fun _ => rfl
  | encUimm v n => exact .pure _ (fun _ => (encUimm_namesCause v n.bits).map _) fun _ => rfl
  | encSoff v n => exact .pure _ (fun _ => (encSoff_namesCause v n.bits).map _) fun _ => rfl
  | encFixed pair => exact .pure _ (fun _ => (encFixed_namesCause params pair).map _) fun _ => rfl
  | resAbs off => exact .pure _ (fun len => (resAbs_namesCause len off).map _) fun _ => rfl
  | resAbs2 off => exact .pure _ (fun len => (resAbs2_namesCause len off).map _) fun _ => rfl
  | resRel off => exact .pure _ (fun len => (resRel_namesCause len off).map _) fun _ => rfl
  | selMode cls am => exact .pure _ (fun _ => (selMode_namesCause params cls am).map _) fun _ => rfl
  | selDisp cls am => exact .pure _ (fun _ => (selDisp_namesCause params cls am).map _) fun _ => rfl
  | pack fields template => exact .append _ (fun _ => packBytes_namesCause fields template) fun _ => rfl
  | emit entry operands =>
    cases hb : bindSlots entry.slots operands with
    | some slots =>
      exact .append _ (fun len => emitBytes_namesCause params len slots entry.template) fun _ => by
        simp only [exec, execEmit, hb]
    | none => exact .illTyped fun _ => by simp only [exec, execEmit, hb]
  | emitMode cls reg am =>
    exact .append _ (fun len => emitModeBytes_namesCause params len cls reg am) fun _ => rfl
  | emitDisp cls reg am =>
    exact .append _ (fun len => emitDispBytes_namesCause params len cls reg am) fun _ => rfl
  | reset => exact .reset rfl
  | rdlen => exact .read _ (fun _ => rfl) fun _ _ _ same => congrArg Value.length same.len
  | rdout addr n => exact .read _ (fun _ => rfl) fun hne => absurd rfl (hne addr n)
  | rdstat =>
    refine .read _ (fun _ => rfl) fun _ s s' same => ?_
    rw [statusWord, statusWord, same.fault, same.cause]

/-- A command that enters the faulted state records a cause other than 0 (rules R200, R204). -/
theorem exec_fault_names_cause {i : Instr} {s t : State} (hs : s.fault = false)
    (h : exec i s = .next t) (ht : t.fault = true) : t.cause ≠ .noFault := by
  obtain ⟨r, hr, hi⟩ | ⟨r, hr, hi⟩ | hi | ⟨v, hi, -⟩ | rfl := exec_shape i
  case reset => cases h; simp at ht
  all_goals rw [hi] at h
  case pure =>
    obtain ⟨hf, -⟩ | ⟨-, v, -, rfl⟩ | ⟨-, c, hc, rfl⟩ := pureCommand_next s t _ h
    · simp [hs] at hf
    · simp [hs] at ht
    · exact hr s.len c hc
  case append =>
    obtain ⟨hf, -⟩ | ⟨-, bs, -, rfl⟩ | ⟨-, c, hc, rfl⟩ := appendCommand_next s t _ h
    · simp [hs] at hf
    · simp [hs] at ht
    · exact hr s.len c hc
  case illTyped => rw [attempt_running s _ hs] at h; cases h
  case read => cases h; simp [hs] at ht

end Sys2Proof.Proofs

/-! ## The invariant of rule R25 -/

namespace Sys2Proof.Proofs

open Sys2Proof.Machine Sys2Proof.Safety

section Invariant

variable {s t : State}

theorem inv_respond (h : Inv s) (r : Response) : Inv (s.respond r) := h

theorem inv_refuseFaulted (h : Inv s) : Inv (refuseFaulted s) := h

theorem inv_commands (h : Inv s) (cs : List Command) : Inv { s with commands := cs } := h

theorem inv_raiseFault (h : Inv s) {c : Cause} (hc : c ≠ .noFault) : Inv (raiseFault c s) := by
  obtain ⟨hwf, hlen, -⟩ := h
  exact ⟨hwf, hlen, by simp [hc]⟩

theorem inv_append (h : Inv s) {bs : List Byte} (hb : bs.length = 2 ∨ bs.length = 4) :
    Inv (s.append bs) := by
  obtain ⟨hwf, hlen, hrec⟩ := h
  refine ⟨memory_append_wf s.out bs hwf, ?_, hrec⟩
  rw [append_len]
  omega

/-- With `OUT` empty and no fault recorded the invariant holds: after RESET, and at reset. -/
theorem inv_resetBlock (s : State) : Inv (resetBlock s) :=
  ⟨memory_nil_wf, rfl, by simp⟩

theorem exec_keeps_inv {i : Instr} (hinv : Inv s) (h : exec i s = .next t) : Inv t := by
  cases exec_cases i s t h with
  | refused hf hc ht => exact ht ▸ inv_refuseFaulted hinv
  | answered v hf hc ha ht => exact ht ▸ inv_respond hinv _
  | appended bs hf ha hb hl ht => exact ht ▸ inv_respond (inv_append hinv hl) _
  | faulted c hf hc hb ht =>
    subst ht
    exact inv_raiseFault hinv (exec_fault_names_cause hf h rfl)
  | read v hc hr ht => exact ht ▸ inv_respond hinv _
  | reset hr ht => exact ht ▸ inv_respond (inv_resetBlock s) _

theorem rejectCommand_keeps_inv {e : DecodeError} (hinv : Inv s) (h : rejectCommand e s = .next t) :
    Inv t := by
  obtain ⟨-, rfl⟩ | ⟨-, rfl⟩ := rejectCommand_next e s t h
  · exact inv_refuseFaulted hinv
  · exact inv_raiseFault hinv (by decide)

end Invariant

/-- Settles O4: each thing a step can do keeps the invariant; for a faulting command this needs that
no command faults with cause 0. -/
theorem stepKeepsInvariant : Obligations.StepKeepsInvariant := by
  intro s t hinv h
  obtain ⟨-, rfl⟩ | ⟨c, rest, -, ⟨i, -, hi⟩ | ⟨e, -, he⟩⟩ := step_cases s t h
  · exact hinv
  · exact exec_keeps_inv (inv_commands hinv rest) hi
  · exact rejectCommand_keeps_inv (inv_commands hinv rest) he

/-- Settles O3: the reset state is what RESET's emptying makes of itself. -/
theorem resetMeetsInvariant : Obligations.ResetMeetsInvariant :=
  inv_resetBlock State.reset

/-- Settles O1: the reset values are read off, and a command placed in front is the one fetched. -/
theorem resetStateIsFresh : Obligations.ResetStateIsFresh :=
  ⟨rfl, rfl, rfl, rfl, fetch_placeCommand State.reset⟩

end Sys2Proof.Proofs

/-! ## `OUT` only grows (rule R10) -/

namespace Sys2Proof.Proofs

open Sys2Proof.Machine Sys2Proof.Safety

theorem read?_eq_map_find? (m : Memory) (a : Nat) :
    m.read? a = (m.find? fun c => c.1 == a).map Prod.snd := by
  unfold Memory.read?
  cases m.find? fun c => c.1 == a <;> rfl

/-- A byte that can be read stays readable, and the same, when cells are added behind it. -/
theorem read?_of_prefix {m m' : Memory} (hm : m <+: m') {a : Nat} {b : Byte}
    (h : m.read? a = some b) : m'.read? a = some b := by
  rw [read?_eq_map_find?, Option.map_eq_some_iff] at h ⊢
  obtain ⟨c, hc, hb⟩ := h
  exact ⟨c, hm.find?_eq_some hc, hb⟩

theorem memory_prefix_append (m : Memory) (bs : List Byte) : m <+: m.append bs :=
  List.prefix_append m _

/-- A record decodes to an operation only under that operation's selector (rule R62). -/
theorem decode_selector {c : Command} {i : Instr} (h : decode c = .ok i) : c.op = (encode i).op := by
  unfold decode at h
  split at h
  case h_21 hop => -- EMIT, the one row with a test of its own
    split at h <;> cases h
    exact BitVec.eq_of_toNat_eq hop
  all_goals cases h
  all_goals exact BitVec.eq_of_toNat_eq ‹_›

section Growth

variable {s t : State}

theorem exec_out_prefix {i : Instr} (hne : i ≠ .reset) (h : exec i s = .next t) : s.out <+: t.out := by
  cases exec_cases i s t h with
  | refused hf hc ht => simp [ht]
  | answered v hf hc ha ht => simp [ht]
  | appended bs hf ha hb hl ht => simpa [ht] using memory_prefix_append s.out bs
  | faulted c hf hc hb ht => simp [ht]
  | read v hc hr ht => simp [ht]
  | reset hr ht => exact absurd hr hne

theorem rejectCommand_out {e : DecodeError} (h : rejectCommand e s = .next t) : t.out = s.out := by
  obtain ⟨-, rfl⟩ | ⟨-, rfl⟩ := rejectCommand_next e s t h <;> rfl

theorem exec_commands {i : Instr} (h : exec i s = .next t) : t.commands = s.commands := by
  cases exec_cases i s t h <;> simp [*]

theorem rejectCommand_commands {e : DecodeError} (h : rejectCommand e s = .next t) :
    t.commands = s.commands := by
  obtain ⟨-, rfl⟩ | ⟨-, rfl⟩ := rejectCommand_next e s t h <;> rfl

/-- A step takes at most the first command (rule R37). -/
theorem step_commands_suffix (h : step s = .next t) : t.commands <:+ s.commands := by
  obtain ⟨-, rfl⟩ | ⟨c, rest, hs, ⟨i, -, hi⟩ | ⟨e, -, he⟩⟩ := step_cases s t h
  · exact List.suffix_rfl
  · rw [exec_commands hi, hs]
    exact List.suffix_cons c rest
  · rw [rejectCommand_commands he, hs]
    exact List.suffix_cons c rest

/-- While no RESET is to come, a step leaves `OUT` or appends to it. -/
theorem step_out_prefix (hs : ∀ c ∈ s.commands, c.op ≠ 0x70#8) (h : step s = .next t) :
    s.out <+: t.out := by
  obtain ⟨-, rfl⟩ | ⟨c, rest, hc, ⟨i, hd, hi⟩ | ⟨e, -, he⟩⟩ := step_cases s t h
  · exact List.prefix_rfl
  · refine exec_out_prefix (s := { s with commands := rest }) ?_ hi
    rintro rfl
    exact hs c (by simp [hc]) (decode_selector hd)
  · rw [rejectCommand_out he]

theorem runFor_succ {k : Nat} (h : runFor (k + 1) s = some t) :
    ∃ u, step s = .next u ∧ runFor k u = some t := by
  unfold runFor at h
  cases hs : step s with
  | next u => rw [hs] at h; exact ⟨u, rfl, h⟩
  | fault r => rw [hs] at h; cases h
  | refused r => rw [hs] at h; cases h

theorem runFor_out_prefix {k : Nat} (hs : ∀ c ∈ s.commands, c.op ≠ 0x70#8) (h : runFor k s = some t) :
    s.out <+: t.out := by
  induction k generalizing s with
  | zero => cases h; exact List.prefix_rfl
  | succ k ih =>
    obtain ⟨u, hu, hrun⟩ := runFor_succ h
    have hcs : ∀ c ∈ u.commands, c.op ≠ 0x70#8 := fun c hc => hs c ((step_commands_suffix hu).subset hc)
    exact (step_out_prefix hs hu).trans (ih hcs hrun)

end Growth

/-- Settles O6: every effect but RESET's leaves `OUT` or appends to it. -/
theorem outputIsAppendOnly : Obligations.OutputIsAppendOnly :=
  fun _ _ _ => exec_out_prefix

/-- Settles O5, by induction on the number of steps; a byte once readable stays so when cells are added
behind it. -/
theorem outputOnlyGrowsAlongRuns : Obligations.OutputOnlyGrowsAlongRuns := by
  intro k s t hs h
  have hpre : s.out <+: t.out := runFor_out_prefix hs h
  exact ⟨hpre, fun _ _ => read?_of_prefix hpre⟩

end Sys2Proof.Proofs

/-! ## The contents of `OUT` reach no response but RDOUT's (rule R10, last sentence) -/

namespace Sys2Proof.Proofs

open Sys2Proof.Machine Sys2Proof.Safety

/-- Two states with the same record and the same last response. -/
structure SameAnswer (t t' : State) : Prop extends SameRecord t t' where
  response : t.response = t'.response

section SameAnswer

variable {s s' t t' : State} (same : SameRecord s s')

include same

theorem SameRecord.respond (r : Response) : SameAnswer (s.respond r) (s'.respond r) :=
  ⟨⟨same.len, same.fault, same.cause⟩, rfl⟩

theorem SameRecord.raiseFault (c : Cause) : SameAnswer (raiseFault c s) (raiseFault c s') :=
  ⟨⟨same.len, rfl, rfl⟩, rfl⟩

theorem SameRecord.refuseFaulted : SameAnswer (refuseFaulted s) (refuseFaulted s') := by
  rw [Machine.refuseFaulted, Machine.refuseFaulted, same.cause]
  exact same.respond _

theorem SameRecord.append (bs : List Byte) : SameRecord (s.append bs) (s'.append bs) :=
  ⟨by rw [append_len, append_len, same.len], same.fault, same.cause⟩

theorem SameRecord.deliver (r : Except Cause Value) : SameAnswer (deliver s r) (deliver s' r) := by
  cases r with
  | ok v => exact same.respond _
  | error c => exact same.raiseFault c

theorem SameRecord.deliverBytes (r : Except Cause (List Byte)) :
    SameAnswer (deliverBytes s r) (deliverBytes s' r) := by
  cases r with
  | ok bs => exact (same.append bs).respond _
  | error c => exact same.raiseFault c

/-- An attempt is refused in both states, or its body runs in both. -/
theorem SameRecord.attempt {body body' : Result} (h : attempt s body = .next t)
    (h' : attempt s' body' = .next t')
    (hbody : body = .next t → body' = .next t' → SameAnswer t t') : SameAnswer t t' := by
  cases hs : s.fault with
  | true =>
    rw [attempt_faulted s _ hs] at h
    rw [attempt_faulted s' _ (same.fault ▸ hs)] at h'
    cases h
    cases h'
    exact same.refuseFaulted
  | false =>
    rw [attempt_running s _ hs] at h
    rw [attempt_running s' _ (same.fault ▸ hs)] at h'
    exact hbody h h'

/-- Every command but RDOUT answers from the record alone. -/
theorem SameRecord.exec {i : Instr} (hi : ∀ addr n, i ≠ .rdout addr n) (h : exec i s = .next t)
    (h' : exec i s' = .next t') : SameAnswer t t' := by
  obtain ⟨r, -, hx⟩ | ⟨r, -, hx⟩ | hx | ⟨v, hx, hv⟩ | rfl := exec_shape i
  case reset => cases h; cases h'; exact ⟨⟨rfl, rfl, rfl⟩, rfl⟩
  all_goals rw [hx] at h h'
  case pure =>
    rw [← same.len] at h'
    refine same.attempt h h' ?_
    rintro ⟨⟩ ⟨⟩
    exact same.deliver _
  case append =>
    rw [← same.len] at h'
    refine same.attempt h h' ?_
    rintro ⟨⟩ ⟨⟩
    exact same.deliverBytes _
  case illTyped => exact same.attempt h h' nofun
  case read =>
    rw [← hv hi s s' same] at h'
    cases h
    cases h'
    exact same.respond _

end SameAnswer

/-- Settles O7: a command's result is a function of its operands and the record. -/
theorem onlyReadOutSeesContents : Obligations.OnlyReadOutSeesContents := by
  intro i s s' t t' hi hlen hfault hcause h h'
  obtain ⟨⟨hl, hf, hc⟩, hr⟩ := (⟨hlen, hfault, hcause⟩ : SameRecord s s').exec hi h h'
  exact ⟨hr, hf, hc, hl⟩

end Sys2Proof.Proofs

/-! ## What a step is, and what an appending command leaves unchanged -/

namespace Sys2Proof.Proofs

open Sys2Proof.Machine Sys2Proof.Safety

/-- With no command to issue a step is idle (rule R218; log 7). -/
theorem step_of_commands_nil {s : State} (hs : s.commands = []) : step s = .next s := by
  rw [step, fetch, hs, idle]

/-- A step executes what the first command decodes to (rule R37). -/
theorem step_of_decode_ok {s : State} {c : Command} {rest : List Command} {i : Instr}
    (hs : s.commands = c :: rest) (hd : decode c = .ok i) :
    step s = exec i { s with commands := rest } := by
  simp only [step, fetch, hs, hd]

/-- Settles O8: the first command is fetched and decoded, or there is none. -/
theorem stepRunsDecoded : Obligations.StepRunsDecoded :=
  ⟨fun _ _ _ _ => step_of_decode_ok, fun _ => step_of_commands_nil⟩

/-- No command both appends and is accepted in the faulted state (rules R30, R205). -/
theorem isControl_of_isAppending {i : Instr} (ha : isAppending i = true) : isControl i = false := by
  cases i with
  | reset | rdlen | rdout | rdstat => cases ha
  | _ => rfl

/-- An appending command with no fault recorded stores its bytes, one or two words of them, or faults
and stores none (rules R127, R177, R204). -/
theorem exec_appending_cases {i : Instr} {s t : State} (ha : isAppending i = true)
    (hf : s.fault = false) (h : exec i s = .next t) :
    (((storedBytes i s).length = 2 ∨ (storedBytes i s).length = 4) ∧
      t = (s.append (storedBytes i s)).respond (.ok (.bytes (storedBytes i s)))) ∨
    (storedBytes i s = [] ∧ ∃ c, t = raiseFault c s) := by
  cases exec_cases i s t h with
  | refused hs => simp [hf] at hs
  | answered v _ _ hna => simp [ha] at hna
  | appended bs _ _ hb hl ht => exact hb ▸ .inl ⟨hl, ht⟩
  | faulted c _ _ hb ht => exact .inr ⟨hb, c, ht⟩
  | read v hc => simp [isControl_of_isAppending ha] at hc
  | reset hr => simp [hr, isAppending] at ha

/-- Settles O21: the bytes stored are an append at `LEN`, and where the command faults there are none. -/
theorem appendingFrame : Obligations.AppendingFrame := by
  intro i s t ha hf h
  have hcommands : t.commands = s.commands := exec_commands h
  obtain ⟨hl, rfl⟩ | ⟨hb, c, rfl⟩ := exec_appending_cases ha hf h
  · exact ⟨read?_append_outside s.out _, append_len s _, by simpa using .inr hl, hcommands,
      .inl ⟨rfl, rfl, rfl⟩⟩
  · exact ⟨fun _ _ => rfl, by simp [hb], by simp [hb], hcommands, .inr ⟨rfl, hb, rfl⟩⟩

end Sys2Proof.Proofs

/-! ## The selector map of rule R62 -/

namespace Sys2Proof.Proofs

open Sys2Proof.Machine Sys2Proof.Safety

/-- The record of a well-formed operation decodes to it; only EMIT's row has a test to pass. -/
theorem decode_encode {i : Instr} (h : i.wf = true) : decode (encode i) = .ok i := by
  cases i with
  | emit entry operands => exact if_pos h
  | _ => rfl

/-- Only operations of the command type are decoded (rules R90, R170). -/
theorem wf_of_decode {c : Command} {i : Instr} (h : decode c = .ok i) : i.wf = true := by
  unfold decode at h
  split at h
  case h_21 => -- EMIT, the one row with a test of its own
    split at h <;> cases h
    assumption
  all_goals cases h
  all_goals rfl

theorem mem_tableSelectors_of_toNat {op : Byte} {n : Nat} (hop : op.toNat = n)
    (hn : BitVec.ofNat 8 n ∈ tableSelectors) : op ∈ tableSelectors := by
  rwa [← hop, BitVec.ofNat_toNat, BitVec.setWidth_eq] at hn

/-- A selector outside the table of rule R62 is rejected by name, whatever the operands (rule R63). -/
theorem decode_of_not_mem_tableSelectors {c : Command} (h : c.op ∉ tableSelectors) :
    decode c = .error (.reservedSelector c.op) := by
  unfold decode
  split
  case h_28 => rfl
  all_goals exact absurd (mem_tableSelectors_of_toNat ‹c.op.toNat = _› (by decide)) h

/-- No selector of the table is rejected as reserved: each has a row of the decoder. -/
theorem decode_ne_reservedSelector {op : Byte} (hop : op ∈ tableSelectors) (args : OperandRecord)
    (op' : Byte) : decode ⟨op, args⟩ ≠ .error (.reservedSelector op') := by
  fin_cases hop
  on_goal 21 => -- EMIT, the one row with a test of its own
    change ite _ _ _ ≠ _
    split <;> nofun
  all_goals nofun

/-- The records rejected as reserved are those whose selector is outside the table (rule R63). -/
theorem decode_eq_reservedSelector_iff (c : Command) (op : Byte) :
    decode c = .error (.reservedSelector op) ↔ op = c.op ∧ c.op ∉ tableSelectors := by
  constructor
  · intro h
    have hop : c.op ∉ tableSelectors := fun hmem => decode_ne_reservedSelector hmem c.args op h
    rw [decode_of_not_mem_tableSelectors hop] at h
    cases h
    exact ⟨rfl, hop⟩
  · rintro ⟨rfl, hop⟩
    exact decode_of_not_mem_tableSelectors hop

/-- An ill-typed record is an EMIT whose operands do not fit its slots (rules R90, R170). -/
theorem bindSlots_of_decode_illTyped {c : Command} (h : decode c = .error .illTypedOperands) :
    c.op = 0x48#8 ∧ bindSlots c.args.entry.slots c.args.operands = none := by
  unfold decode at h
  split at h
  case h_21 hop =>
    split at h
    case isTrue => cases h
    case isFalse hwf => exact ⟨BitVec.eq_of_toNat_eq hop, by simpa [Instr.wf] using hwf⟩
  all_goals cases h

/-- Settles O10: the encoder is a right inverse of the decoder on well-formed operations, the decoder
answers no others, and its two errors are told apart. -/
theorem decodeEncodeAgree : Obligations.DecodeEncodeAgree := by
  refine ⟨fun _ => decode_encode, fun c i h => ?_, fun c e h => ?_⟩
  · have hwf : i.wf = true := wf_of_decode h
    exact ⟨hwf, (decode_selector h).symm, decode_encode hwf⟩
  · cases e with
    | reservedSelector op =>
      obtain ⟨rfl, hop⟩ := (decode_eq_reservedSelector_iff c op).mp h
      exact .inl ⟨rfl, hop⟩
    | illTypedOperands => exact .inr ⟨rfl, bindSlots_of_decode_illTyped h⟩

/-- A step rejects a first command that decodes to nothing. -/
theorem step_of_decode_error {s : State} {c : Command} {rest : List Command} {e : DecodeError}
    (hs : s.commands = c :: rest) (hd : decode c = .error e) :
    step s = rejectCommand e { s with commands := rest } := by
  simp only [step, fetch, hs, hd]

/-- Settles O9: the record is rejected, and with no fault recorded the rejection of a reserved selector
is the fault BAD_COMMAND. -/
theorem reservedSelectorFaults : Obligations.ReservedSelectorFaults := by
  intro s c rest hop hs hf
  have hd := decode_of_not_mem_tableSelectors hop
  refine ⟨hd, ?_⟩
  rw [step_of_decode_error hs hd, rejectCommand]
  exact attempt_running _ _ hf

/-- Settles O11: each record is the one the encoder makes of its operation. -/
theorem sampleRecordsDecode : Obligations.SampleRecordsDecode :=
  ⟨decode_encode (i := .offRel _) rfl, decode_encode (i := .encPair _ _) rfl,
    decode_encode (i := .resRel _) rfl, decode_encode (i := .pack _ _) rfl,
    decode_encode (i := .selDisp _ _) rfl, decode_encode (i := .emitMode _ _ _) rfl,
    decode_encode (i := .rdout _ _) rfl⟩

end Sys2Proof.Proofs

/-! ## Every command answers, and what its response says (rules R64, R205, R251) -/

namespace Sys2Proof.Proofs

open Sys2Proof.Machine Sys2Proof.Safety

theorem exec_answers {i : Instr} (hwf : i.wf = true) (s : State) : ∃ t, exec i s = .next t := by
  cases i with
  | emit entry operands =>
    obtain ⟨slots, hb⟩ := Option.isSome_iff_exists.mp hwf
    simp only [exec, execEmit, hb]
    exact appendCommand_answers s _
  | pack | emitMode | emitDisp => exact appendCommand_answers s _
  | reset | rdlen | rdout | rdstat => exact ⟨_, rfl⟩
  | _ => exact pureCommand_answers s _

/-- An EMIT whose operands do not fit its slots is attempted like any command and has no body (log 4). -/
theorem exec_illTyped {i : Instr} (hwf : i.wf = false) (s : State) :
    exec i s = attempt s (.refused .illTypedCommand) := by
  cases i with
  | emit entry operands =>
    have hb : bindSlots entry.slots operands = none := by simpa [Instr.wf] using hwf
    simp only [exec, execEmit, hb]
  | _ => cases hwf

/-- Settles O13: read off from each of the six things a command can do. -/
theorem responseTellsWhatHappened : Obligations.ResponseTellsWhatHappened := by
  intro i s t h
  cases exec_cases i s t h with
  | refused hf hc ht =>
    exact ⟨.refused s.cause,
      by simp [ht, hf, hc, Response.status, Response.cause?, Response.value?]⟩
  | answered v hf hc ha ht =>
    exact ⟨.ok v, by simp [ht, hf, Response.status, Response.value?]⟩
  | appended bs hf ha hb hl ht =>
    exact ⟨.ok (.bytes bs), by simp [ht, hf, Response.status, Response.value?]⟩
  | faulted c hf hc hb ht =>
    exact ⟨.fault c, by simp [ht, hf, Response.status, Response.cause?, Response.value?]⟩
  | read v hc hr ht =>
    exact ⟨.ok v, by simp +contextual [ht, hc, Response.status, Response.value?]⟩
  | reset hr ht =>
    exact ⟨.ok .nothing, by simp [ht, hr, isControl, Response.status, Response.value?]⟩

/-- Settles O12: a well-formed command answers in every state; an ill-typed EMIT has no body to run. -/
theorem everyCommandAnswers : Obligations.EveryCommandAnswers := by
  refine fun i s => ⟨fun hwf => ?_, fun hwf hf => ?_⟩
  · obtain ⟨t, ht⟩ := exec_answers hwf s
    obtain ⟨r, hr, -⟩ := responseTellsWhatHappened i s t ht
    exact ⟨t, r, ht, hr, exec_commands ht⟩
  · rw [exec_illTyped hwf, attempt_running s _ hf]

/-- Settles O20: of the things a command can do, only an append and RESET touch `OUT`. -/
theorem nonAppendingFrame : Obligations.NonAppendingFrame := by
  intro i s t hna hne h
  have hcommands : t.commands = s.commands := exec_commands h
  cases exec_cases i s t h with
  | refused hf hc ht => subst ht; exact ⟨fun _ => rfl, rfl, hcommands, .inl ⟨rfl, rfl⟩⟩
  | answered v hf hc ha ht => subst ht; exact ⟨fun _ => rfl, rfl, hcommands, .inl ⟨rfl, rfl⟩⟩
  | read v hc hr ht => subst ht; exact ⟨fun _ => rfl, rfl, hcommands, .inl ⟨rfl, rfl⟩⟩
  | faulted c hf hc hb ht => subst ht; exact ⟨fun _ => rfl, rfl, hcommands, .inr ⟨hf, rfl, rfl⟩⟩
  | appended bs hf ha => simp [hna] at ha
  | reset hr => exact absurd hr hne

end Sys2Proof.Proofs

/-! ## The template language (rules R51, R52, R55, R121) -/

namespace Sys2Proof.Proofs

open Sys2Proof.Machine Sys2Proof.Safety

/-- A designator is a letter of its case's block of ASCII, at the letter's index (rule R51). -/
theorem toNat_of_letterOf? {c : Char} {x : Letter} (h : letterOf? c = some x) :
    c.toNat = (if x.upper then 65 else 97) + x.index := by
  unfold letterOf? at h
  split_ifs at h with hupper hlower
  · cases h; simp; omega
  · cases h; simp; omega

theorem letterOf?_isSome (c : Char) :
    (letterOf? c).isSome ↔ (65 ≤ c.toNat ∧ c.toNat ≤ 90) ∨ (97 ≤ c.toNat ∧ c.toNat ≤ 122) := by
  unfold letterOf?
  split_ifs with hupper hlower
  · simp [hupper]
  · simp [hlower]
  · simp [hupper, hlower]

/-- The literals are no designators, so a field's item comes from a letter. -/
theorem letterOf?_of_itemOf? {c : Char} {x : Letter} (h : itemOf? c = some (.field x)) :
    letterOf? c = some x := by
  unfold itemOf? at h
  split_ifs at h
  · cases h
  · cases h
  · simpa using h

/-- Different letters give different designators; upper and lower case differ (rule R51, D9). -/
theorem itemOf?_field_injective {c d : Char} {x : Letter} (hc : itemOf? c = some (.field x))
    (hd : itemOf? d = some (.field x)) : c = d := by
  have hcn := toNat_of_letterOf? (letterOf?_of_itemOf? hc)
  have hdn := toNat_of_letterOf? (letterOf?_of_itemOf? hd)
  exact Char.toNat_inj.mp (hcn.trans hdn.symm)

/-- A legal character is a space or has an item. -/
theorem legalChar_iff (c : Char) : legalChar c ↔ c = ' ' ∨ (itemOf? c).isSome := by
  unfold legalChar itemOf?
  split_ifs with h0 h1
  · simp [h0]
  · simp [h1]
  · simp only [h0, h1, false_or, Option.isSome_map, letterOf?_isSome]

/-- A template parses to the items of its characters, spaces skipped (rule R121). -/
theorem parseChars_eq_ok (cs : List Char) (items : List Item) :
    parseChars cs = .ok items ↔ items.map some = (cs.filter (· != ' ')).map itemOf? := by
  induction cs generalizing items with
  | nil => simp [parseChars, @eq_comm _ []]
  | cons c cs ih =>
    unfold parseChars
    by_cases hc : c = ' '
    · simpa [hc] using ih items
    · cases hi : itemOf? c with
      | none => cases items <;> simp [hc, hi]
      | some it =>
        rw [if_neg hc]
        simp only [map_eq_ok, ih]
        cases items with
        | nil => simp [hc]
        | cons it' items => simp [hc, hi, and_comm, eq_comm (a := it)]

/-- A template parses exactly when no character but a space lacks an item. -/
theorem parseChars_ok_iff (cs : List Char) :
    (∃ items, parseChars cs = .ok items) ↔ ∀ c ∈ cs, legalChar c := by
  have hrange (os : List (Option Item)) :
      (∃ items : List Item, items.map some = os) ↔ ∀ o ∈ os, o.isSome := by
    simpa [Option.isSome_iff_exists, eq_comm (b := some _)] using
      Set.ext_iff.mp (Set.range_list_map (some : Item → _)) os
  simp only [parseChars_eq_ok, hrange, legalChar_iff, List.forall_mem_map, List.mem_filter, bne_iff_ne,
    and_imp, or_iff_not_imp_left, ne_eq]

/-- Settles O39: the items of the literals and the 52 letters are computed; a letter's item determines
its character; and a template parses to its characters' items where all have one. -/
theorem templateParsesIffLegal : Obligations.TemplateParsesIffLegal := by
  refine ⟨⟨rfl, rfl⟩, by decide, ?_, fun template => ⟨?_, fun items => ?_⟩⟩
  · rintro c d x y hc hd hne rfl
    exact hne (itemOf?_field_injective hc hd)
  · exact (parseChars_ok_iff template.toList).symm
  · exact (parseChars_eq_ok template.toList items).mp

end Sys2Proof.Proofs

/-! ## A slot's outcome is its row of the operand table (rules R57, R65, R110, R147) -/

namespace Sys2Proof.Proofs

open Sys2Proof.Machine Sys2Proof.Safety

/-- RES.ABS2 over the target as an integer: it resolves, it is even, and it is halved (rule R142). -/
theorem resAbs2_eq (len : Nat) (o : Offset) :
    resAbs2 len o =
      if Resolves len o then
        if offsetTarget len o % 2 = 0 then .ok (BitVec.ofNat 32 (offsetTarget len o / 2).toNat)
        else .error .absOdd
      else .error .offsetRange := by
  rw [resAbs2, resAbs_eq]
  split_ifs with hres heven
  all_goals simp only [except_ok_bind, except_error_bind, require_bind, except_pure, decide_eq_true_eq]
  all_goals have ha := resAbs_toNat len o hres
  · rw [if_pos (by omega)]
    congr
    omega
  · rw [if_neg (by omega)]

/-- RES.REL over the target as an integer: it resolves, and the difference is an `i32` (rule R143). -/
theorem resRel_eq (len : Nat) (o : Offset) :
    resRel len o =
      if Resolves len o ∧ -2 ^ 31 ≤ offsetTarget len o - len ∧ offsetTarget len o - len < 2 ^ 31 then
        .ok (BitVec.ofInt 32 (offsetTarget len o - len))
      else .error .offsetRange := by
  rw [resRel, resAbs_eq]
  by_cases hres : Resolves len o
  · simp only [if_pos hres, except_ok_bind, require_bind, except_pure, resAbs_toNat len o hres,
      decide_eq_true_eq, and_iff_right hres]
  · rw [if_neg hres, if_neg fun h => hres h.1, except_error_bind]

/-- Two's complement at width `n`: a negative number is moved up by `2^n` (rules R101, R108). -/
theorem fieldBits_of_bounds {v : Int} {n : Nat} (hl : -(2 : Int) ^ n ≤ 2 * v) (hu : 2 * v < (2 : Int) ^ n) :
    fieldBits v n = if 0 ≤ v then v.toNat else (v + (2 : Int) ^ n).toNat := by
  unfold fieldBits
  split_ifs with hv
  · rw [Int.emod_eq_of_lt hv (by omega)]
  · rw [← Int.add_emod_right, Int.emod_eq_of_lt (by omega) (by omega)]

/-- The masks and shifts of the register rows as differences, remainders and sums (rules R103 to R105). -/
theorem register_patterns : ∀ id < 32,
    (16 ≤ id → id &&& 0xF = id - 16) ∧ (16 ≤ id ∧ id ≤ 23 → id &&& 0x7 = id - 16) ∧
    ((id &&& 16) <<< 5) ||| (id <<< 4) ||| (id &&& 0xF) = id / 16 * 512 + id * 16 + id % 16 := by
  decide

/-- What a slot answers where the operand table gives `row` and `c` is the cause of the first failing
condition. -/
def rowOutcome (c : Cause) (row : Option (List PackField)) : Except Cause (List PackField) :=
  row.elim (.error c) .ok

@[simp] theorem rowOutcome_some (c : Cause) (fs : List PackField) : rowOutcome c (some fs) = .ok fs := rfl

@[simp] theorem rowOutcome_none (c : Cause) : rowOutcome c none = .error c := rfl

/-- Encoding the slot is looking up its row of the table of rule R57. -/
def FollowsTable (P : Config.Params) (len : Nat) (w : Letter → Nat) (sl : TypedSlot) : Prop :=
  encodeSlot P len w sl = rowOutcome (slotCause len w sl) (slotFields? P len w sl)

section Rows

variable (P : Config.Params) (len : Nat) (w : Letter → Nat) (x : Letter)

/-- The row of a signed integer, which the SIMM and REL slots share (rule R108). -/
theorem encSoff_followsTable (v : I32) (hw : 1 ≤ w x) :
    (encSoff v (w x)).map (fieldAt w x) =
      rowOutcome .soffRange ((signedField? x (w x) v.toInt).map fun f => [f]) := by
  have hpow : (2 : Int) ^ w x = 2 * 2 ^ (w x - 1) := by rw [← pow_succ', Nat.sub_add_cancel hw]
  have hrange : (-(2 : Int) ^ (w x - 1) ≤ v.toInt ∧ v.toInt < (2 : Int) ^ (w x - 1)) ↔
      (-(2 : Int) ^ w x ≤ 2 * v.toInt ∧ 2 * v.toInt < (2 : Int) ^ w x) := by omega
  rw [encSoff_eq, signedField?, if_congr hrange rfl rfl]
  by_cases h : -(2 : Int) ^ w x ≤ 2 * v.toInt ∧ 2 * v.toInt < (2 : Int) ^ w x
  · rw [if_pos h, if_pos h, fieldBits_of_bounds h.1 h.2]
    rfl
  · rw [if_neg h, if_neg h]
    rfl

/-- The rows of a plain register: the width of the field selects one, and then its range holds or not. -/
theorem reg_followsTable (r : Register) : FollowsTable P len w (.reg x r) := by
  have hpat := register_patterns r.id.toNat
  simp only [FollowsTable, encodeSlot, slotFields?, slotCause, encReg, regField?]
  by_cases h5 : w x = 5
  · by_cases hr : r.id.toNat ≤ 31 <;> simp [h5, hr, encReg5_eq, fieldAt]
  by_cases h4 : w x = 4
  · by_cases hr : 16 ≤ r.id.toNat ∧ r.id.toNat ≤ 31
    · simp [h4, hr, encReg4_eq, fieldAt, (hpat (by omega)).1 hr.1]
    · simp [h4, hr, encReg4_eq]
  by_cases h3 : w x = 3
  · by_cases hr : 16 ≤ r.id.toNat ∧ r.id.toNat ≤ 23
    · simp [h3, hr, encReg3_eq, fieldAt, (hpat (by omega)).2.1 hr]
    · simp [h3, hr, encReg3_eq]
  by_cases h10 : w x = 10
  · by_cases hr : r.id.toNat ≤ 31
    · simp [h10, hr, encReg10_eq, fieldAt, (hpat (by omega)).2.2]
    · simp [h10, hr, encReg10_eq]
  · simp [h5, h4, h3, h10]

/-- The row of a register pair: both in range, then the shape, then the reach of the field (rule R106). -/
theorem pair_followsTable (p : RegisterPair) : FollowsTable P len w (.pair x p) := by
  have hbits : fieldBits (p.low.id.toNat / 2 : Nat) (w x) = p.low.id.toNat / 2 % 2 ^ w x := by
    unfold fieldBits
    norm_cast
  simp only [FollowsTable, encodeSlot, slotFields?, slotCause, encPair_eq]
  by_cases hrange : p.high.id.toNat ≤ 31 ∧ p.low.id.toNat ≤ 31
  case neg => rw [if_neg hrange, if_pos (by omega), if_neg (by omega)]; rfl
  rw [if_pos hrange, if_neg (c := 31 < _ ∨ _) (by omega)]
  by_cases hshape : p.high.id.toNat = p.low.id.toNat + 1 ∧ p.low.id.toNat % 2 = 0
  case neg => rw [if_neg hshape, if_pos (by omega), if_neg (by omega)]; rfl
  rw [if_pos hshape, if_neg (c := _ ≠ _ ∨ _) (by omega)]
  by_cases hreach : 32 ≤ p.low.id.toNat + 2 * 2 ^ w x
  case neg => rw [if_neg hreach, if_neg (by omega)]; rfl
  rw [if_pos hreach, if_pos (by omega), except_map_ok, hbits]
  rfl

/-- The row of an unsigned immediate (rule R107). -/
theorem uimm_followsTable (v : Nat) : FollowsTable P len w (.uimm x v) := by
  simp only [FollowsTable, encodeSlot, slotFields?, slotCause, encUimm_eq]
  split_ifs <;> rfl

/-- The row of a relative offset: the resolver's conditions, then the signed integer's (rule R143). -/
theorem rel_followsTable (o : Offset) (hw : 1 ≤ w x) : FollowsTable P len w (.rel x o) := by
  simp only [FollowsTable, encodeSlot, slotFields?, slotCause, resRel_eq]
  split_ifs with hres
  · obtain ⟨-, hl, hu⟩ := hres
    have hdiff : (BitVec.ofInt 32 (offsetTarget len o - len)).toInt = offsetTarget len o - len :=
      BitVec.toInt_ofInt_eq_self (by decide) hl hu
    rw [except_ok_bind, encSoff_followsTable w x _ hw, hdiff]
  · rfl

/-- The row of an absolute word address: the resolver's conditions, then the immediate's (rule R142). -/
theorem abs2_followsTable (o : Offset) : FollowsTable P len w (.abs2 x o) := by
  simp only [FollowsTable, encodeSlot, slotFields?, slotCause, resAbs2_eq, encUimm_eq]
  by_cases hres : Resolves len o
  case neg => rw [if_neg hres, if_pos hres, if_neg fun h => hres h.1]; rfl
  rw [if_pos hres, if_neg (not_not.mpr hres)]
  by_cases heven : offsetTarget len o % 2 = 0
  case neg => rw [if_neg heven, if_pos heven, if_neg fun h => heven h.2.1]; rfl
  have hpow : ((2 ^ w x : Nat) : Int) = (2 : Int) ^ w x := by norm_cast
  have hhalf : (BitVec.ofNat 32 (offsetTarget len o / 2).toNat).toNat = (offsetTarget len o / 2).toNat := by
    rw [BitVec.toNat_ofNat]
    omega
  rw [if_pos heven, if_neg (not_not.mpr heven), except_ok_bind, hhalf]
  by_cases hfit : (offsetTarget len o / 2).toNat < 2 ^ w x
  · rw [if_pos hfit, if_pos ⟨hres, heven, by omega⟩]
    rfl
  · rw [if_neg hfit, if_neg (by omega)]
    rfl

/-- The row of a fixed pair (rule R109). -/
theorem fixed_followsTable (p : RegisterPair) : FollowsTable P len w (.fixed p) := by
  simp only [FollowsTable, encodeSlot, slotFields?, slotCause, encFixed_eq]
  split_ifs <;> rfl

end Rows

/-- Every slot at a width of at least 1 follows its row. -/
theorem encodeSlot_followsTable (P : Config.Params) (len : Nat) (w : Letter → Nat) (sl : TypedSlot)
    (hw : ∀ x, slotLetter? sl = some x → 1 ≤ w x) : FollowsTable P len w sl := by
  cases sl with
  | reg x r => exact reg_followsTable P len w x r
  | pair x p => exact pair_followsTable P len w x p
  | uimm x v => exact uimm_followsTable P len w x v
  | simm x v => exact encSoff_followsTable w x v (hw x rfl)
  | rel x o => exact rel_followsTable P len w x o (hw x rfl)
  | abs2 x o => exact abs2_followsTable P len w x o
  | fixed p => exact fixed_followsTable P len w p

/-- Settles O51: a slot follows its row, where the row gives fields and where it fails. -/
theorem slotsFollowTheOperandTable : Obligations.SlotsFollowTheOperandTable := by
  intro P len w sl hw
  have h : encodeSlot P len w sl = rowOutcome (slotCause len w sl) (slotFields? P len w sl) :=
    encodeSlot_followsTable P len w sl hw
  exact ⟨fun f hf => by rw [h, hf, rowOutcome_some], fun hf => by rw [h, hf, rowOutcome_none]⟩

end Sys2Proof.Proofs

/-! ## The operand model's constructors (rules R83 to R88) -/

namespace Sys2Proof.Proofs

open Sys2Proof.Machine Sys2Proof.Safety

/-- OFF.REL's value with its test as one `if` (rule R84). -/
theorem offRel_eq (bytes : I32) :
    offRel bytes =
      if bytes.toInt % 2 = 0 then .ok (.relative (BitVec.ofInt 32 (bytes.toInt / 2)))
      else .error .deltaOdd := by
  simp only [offRel, require_bind, decide_eq_true_eq, except_pure]

/-- Half of an `i32` is an `i32`, so halving an even delta loses nothing. -/
theorem two_mul_toInt_half {bytes : I32} (heven : bytes.toInt % 2 = 0) :
    2 * (BitVec.ofInt 32 (bytes.toInt / 2)).toInt = bytes.toInt := by
  have hl : -2 ^ 31 ≤ bytes.toInt := BitVec.le_toInt bytes
  have hu : bytes.toInt < 2 ^ 31 := BitVec.toInt_lt
  have hhalf : (BitVec.ofInt 32 (bytes.toInt / 2)).toInt = bytes.toInt / 2 :=
    BitVec.toInt_ofInt_eq_self (by decide) (by omega) (by omega)
  omega

theorem exec_offRel_of_even {bytes : I32} {s : State} (hf : s.fault = false)
    (heven : bytes.toInt % 2 = 0) :
    exec (.offRel bytes) s =
      answers s (.offset (.relative (BitVec.ofInt 32 (bytes.toInt / 2)))) := by
  rw [exec, execOffRel, offRel_eq, if_pos heven]
  exact pureCommand_ok s _ hf

theorem exec_offRel_of_odd {bytes : I32} {s : State} (hf : s.fault = false)
    (hodd : bytes.toInt % 2 ≠ 0) : exec (.offRel bytes) s = faults s .deltaOdd := by
  rw [exec, execOffRel, offRel_eq, if_neg hodd]
  exact pureCommand_error s _ hf

/-- Settles O24: the offset answered is the half of the delta, which doubles back to it. -/
theorem offsetRelativeHalvesEvenDeltas : Obligations.OffsetRelativeHalvesEvenDeltas :=
  fun _ _ hf => ⟨rfl, fun heven => ⟨_, two_mul_toInt_half heven, exec_offRel_of_even hf heven⟩,
    exec_offRel_of_odd hf⟩

/-- Settles O23: OFF.ABS is a pure command that tests nothing. -/
theorem offsetAbsoluteAcceptsAll : Obligations.OffsetAbsoluteAcceptsAll :=
  fun _ s hf => ⟨rfl, pureCommand_ok s _ hf⟩

/-- Settles O25: each constructor is a pure command that tests nothing. -/
theorem modeConstructorsNeverFault : Obligations.ModeConstructorsNeverFault :=
  fun _ _ s hf => ⟨rfl, rfl, rfl, rfl, pureCommand_ok s _ hf, pureCommand_ok s _ hf,
    pureCommand_ok s _ hf, pureCommand_ok s _ hf⟩

end Sys2Proof.Proofs

/-! ## The operand encoder's commands (rules R102 to R109) -/

namespace Sys2Proof.Proofs

open Sys2Proof.Machine Sys2Proof.Safety

section PureCommand

variable {α : Type} {e : Except Cause α} {f : α → Value} {a : α} {c : Cause} {s : State}
  {test : Prop} [Decidable test]

theorem pureCommand_map_of_ok (hf : s.fault = false) (he : e = .ok a) :
    pureCommand s (e.map f) = answers s (f a) :=
  he ▸ pureCommand_ok s (f a) hf

theorem pureCommand_map_of_error (hf : s.fault = false) (he : e = .error c) :
    pureCommand s (e.map f) = faults s c :=
  he ▸ pureCommand_error s c hf

/-- A command with one test answers where the test holds (rule R7). -/
theorem pureCommand_answers_of_test (hf : s.fault = false) (he : e = if test then .ok a else .error c)
    (ht : test) : pureCommand s (e.map f) = answers s (f a) :=
  pureCommand_map_of_ok hf (he.trans (if_pos ht))

/-- A command with one test faults where the test fails (rule R7). -/
theorem pureCommand_faults_of_not_test (hf : s.fault = false)
    (he : e = if test then .ok a else .error c) (ht : ¬ test) :
    pureCommand s (e.map f) = faults s c :=
  pureCommand_map_of_error hf (he.trans (if_neg ht))

end PureCommand

/-- Settles O26: ENC.REG5 tests the identifier's range and nothing else. -/
theorem encodeRegisterFiveBits : Obligations.EncodeRegisterFiveBits :=
  fun reg _ hf => ⟨rfl, pureCommand_answers_of_test hf (encReg5_eq reg),
    fun h => pureCommand_faults_of_not_test hf (encReg5_eq reg) (by omega)⟩

/-- Settles O27: on 16 to 31 the mask clears bit 4, which is the bit of value 16. -/
theorem encodeRegisterFourBits : Obligations.EncodeRegisterFourBits := by
  intro reg s hf
  refine ⟨rfl, fun h => ⟨?_, pureCommand_answers_of_test hf (encReg4_eq reg) h⟩,
    fun h => pureCommand_faults_of_not_test hf (encReg4_eq reg) (by omega)⟩
  exact (register_patterns reg.id.toNat (by omega)).1 h.1

/-- Settles O28: on 16 to 23 the mask clears bit 4, which is the bit of value 16. -/
theorem encodeRegisterThreeBits : Obligations.EncodeRegisterThreeBits := by
  intro reg s hf
  refine ⟨rfl, fun h => ⟨?_, pureCommand_answers_of_test hf (encReg3_eq reg) h⟩,
    fun h => pureCommand_faults_of_not_test hf (encReg3_eq reg) (by omega)⟩
  exact (register_patterns reg.id.toNat (by omega)).2.1 h

/-- The pattern of ENC.REG10, as `encReg10_eq` gives it (rule R105). -/
def splitPattern (id : Nat) : Nat :=
  ((id &&& 16) <<< 5) ||| (id <<< 4) ||| (id &&& 0xF)

theorem splitPattern_bits : ∀ id < 32,
    splitPattern id < 2 ^ 10 ∧ (splitPattern id).testBit 9 = id.testBit 4 ∧
    (∀ k < 5, (splitPattern id).testBit (4 + k) = id.testBit k) ∧
    ∀ k < 4, (splitPattern id).testBit k = id.testBit k := by
  decide

/-- Settles O29: the pattern's bits are computed for the 32 registers. -/
theorem encodeRegisterSplitLayout : Obligations.EncodeRegisterSplitLayout := by
  intro reg s hf
  refine ⟨rfl, fun h => ?_, fun h => pureCommand_faults_of_not_test hf (encReg10_eq reg) (by omega)⟩
  obtain ⟨hlt, htop, hmid, hlow⟩ := splitPattern_bits reg.id.toNat (by omega)
  exact ⟨_, hlt, htop, hmid, hlow, pureCommand_answers_of_test hf (encReg10_eq reg) h⟩

/-- ENC.PAIR's three tests in their order (rule R106). -/
theorem exec_encPair (p : RegisterPair) (n : Width) {s : State} (hf : s.fault = false) :
    exec (.encPair p n) s =
      if 31 < p.high.id.toNat ∨ 31 < p.low.id.toNat then faults s .regRange
      else if p.high.id.toNat ≠ p.low.id.toNat + 1 ∨ p.low.id.toNat % 2 ≠ 0 then faults s .pairInvalid
      else if (p.low.id.toNat : Int) < 32 - 2 * 2 ^ n.bits then faults s .pairRange
      else answers s (.pattern (p.low.id.toNat / 2) n.bits) := by
  have hpow : ((2 ^ n.bits : Nat) : Int) = (2 : Int) ^ n.bits := by norm_cast
  have he := encPair_eq p n.bits
  split_ifs with hrange hshape hreach
  · rw [if_neg (by omega)] at he
    exact pureCommand_map_of_error hf he
  · rw [if_pos (by omega), if_neg (by omega)] at he
    exact pureCommand_map_of_error hf he
  · rw [if_pos (by omega), if_pos (by omega), if_neg (by omega)] at he
    exact pureCommand_map_of_error hf he
  · rw [if_pos (by omega), if_pos (by omega), if_pos (by omega)] at he
    exact pureCommand_map_of_ok hf he

theorem fieldBits_natCast (v n : Nat) : fieldBits (v : Int) n = v % 2 ^ n := by
  unfold fieldBits
  norm_cast

/-- Pair number `k`, of the 16 pairs, in a field of `n ≤ 4` bits that reaches it: the field counts from
the lowest pair it reaches, whose number `16 - 2 ^ n` is a multiple of `2 ^ n` (rules R101, R106). -/
theorem mod_two_pow_of_reach {k n : Nat} (hn : n ≤ 4) (hk : k < 16) (hreach : 16 ≤ k + 2 ^ n) :
    k % 2 ^ n = k + 2 ^ n - 16 := by
  interval_cases n <;> omega

/-- Settles O30: the tests one by one; the field pattern is the pair's number modulo `2 ^ N`. -/
theorem encodePair : Obligations.EncodePair := by
  intro p n s hf
  refine ⟨rfl, exec_encPair p n hf, fun hvalid hreach => ?_⟩
  have hpow : ((2 ^ n.bits : Nat) : Int) = (2 : Int) ^ n.bits := by norm_cast
  simp only [validPair, Bool.and_eq_true, validReg_iff, pairShape_iff] at hvalid
  rw [fieldBits_natCast]
  constructor
  · intro hn
    rw [mod_two_pow_of_reach hn (by omega) (by omega)]
    omega
  · intro hn
    have hwide : 2 ^ 4 ≤ 2 ^ n.bits := Nat.pow_le_pow_right (by decide) hn
    exact Nat.mod_eq_of_lt (by omega)

/-- Settles O31: ENC.UIMM tests that the value fits and nothing else. -/
theorem encodeUnsignedImmediate : Obligations.EncodeUnsignedImmediate :=
  fun v n _ hf => ⟨rfl, pureCommand_answers_of_test hf (encUimm_eq v n.bits),
    fun h => pureCommand_faults_of_not_test hf (encUimm_eq v n.bits) (by omega)⟩

/-- A field's two's complement as an integer below `2 ^ N` (rule R108). -/
theorem fieldBits_twosComplement {v : Int} (n : Width) (hl : -(2 : Int) ^ (n.bits - 1) ≤ v)
    (hu : v < (2 : Int) ^ (n.bits - 1)) :
    (fieldBits v n.bits : Int) = (if 0 ≤ v then v else v + (2 : Int) ^ n.bits) ∧
      fieldBits v n.bits < 2 ^ n.bits := by
  have hdouble : (2 : Int) ^ n.bits = 2 * 2 ^ (n.bits - 1) := pow_succ' 2 n.lessOne
  have hpow : ((2 ^ n.bits : Nat) : Int) = (2 : Int) ^ n.bits := by norm_cast
  rw [fieldBits_of_bounds (by omega) (by omega)]
  split_ifs <;> omega

/-- Settles O32: ENC.SOFF tests the range, and the pattern of a value in it is its two's complement. -/
theorem encodeSignedOffset : Obligations.EncodeSignedOffset := by
  intro v n s hf
  refine ⟨rfl, fun h => ?_, fun h => pureCommand_faults_of_not_test hf (encSoff_eq v n.bits) (by omega)⟩
  obtain ⟨hvalue, hlt⟩ := fieldBits_twosComplement n h.1 h.2
  exact ⟨_, hvalue, hlt, pureCommand_answers_of_test hf (encSoff_eq v n.bits) h⟩

/-- Settles O33: ENC.FIXED tests that the pair is the parameter and nothing else. -/
theorem encodeFixedPair : Obligations.EncodeFixedPair :=
  fun p _ hf => ⟨rfl, pureCommand_answers_of_test hf (encFixed_eq params p),
    pureCommand_faults_of_not_test hf (encFixed_eq params p)⟩

end Sys2Proof.Proofs

/-! ## The scan, bit by bit (rules R52, R53, R123) -/

namespace Sys2Proof.Proofs

open Sys2Proof.Machine Sys2Proof.Safety

/-- The bit an item gives: a literal itself, a letter the lowest bit that remains of its pattern. -/
def nextBit (rem : Letter → Nat) : Item → Bool
  | .lit b => b
  | .field x => (rem x).testBit 0

/-- What remains of the patterns after an item: a letter's bit is popped (rule R53). -/
def popItem (rem : Letter → Nat) : Item → Letter → Nat
  | .lit _ => rem
  | .field x => popShift rem x

/-- The bit that position `j` of the items from the right gets, in the closed form of rule R123. -/
def itemBit (rem : Letter → Nat) (its : List Item) (j : Nat) : Bool :=
  match its[j]? with
  | none => false
  | some (.lit b) => b
  | some (.field x) => (rem x).testBit ((its.take j).count (.field x))

section Scan

variable (rem : Letter → Nat) (it : Item) (its : List Item)

/-- The scan takes one item's bit to the current position and goes on with what remains. -/
theorem scan_cons (R pos : Nat) :
    scan (it :: its) rem R pos =
      scan its (popItem rem it) (R ||| (nextBit rem it).toNat <<< pos) (pos + 1) := by
  cases it with
  | lit b => rfl
  | field x => rw [scan, nextBit, popItem, Nat.toNat_testBit, pow_zero, Nat.div_one, Nat.and_one_is_mod]

theorem itemBit_nil (j : Nat) : itemBit rem [] j = false := rfl

theorem itemBit_cons_zero : itemBit rem (it :: its) 0 = nextBit rem it := by
  cases it <;> rfl

/-- A letter's pattern after a pop has the bits of the one before it, one place down. -/
theorem testBit_popItem (x : Letter) (k : Nat) :
    (popItem rem it x).testBit k = (rem x).testBit (k + [it].count (.field x)) := by
  cases it with
  | lit b => rfl
  | field y =>
    by_cases hx : x = y
    · simp [popItem, popShift, hx, Nat.add_comm]
    · simp [popItem, popShift, hx, Ne.symm hx]

theorem itemBit_cons_succ (j : Nat) :
    itemBit rem (it :: its) (j + 1) = itemBit (popItem rem it) its j := by
  unfold itemBit
  rw [List.getElem?_cons_succ, List.take_succ_cons]
  match its[j]? with
  | none => rfl
  | some (.lit b) => rfl
  | some (.field x) =>
    simp only [testBit_popItem]
    rw [← List.singleton_append, List.count_append, Nat.add_comm]

/-- Each position of the result is set once: below `pos` it is kept, from there up the items set it. -/
theorem testBit_scan (R pos i : Nat) :
    (scan its rem R pos).testBit i = (R.testBit i || (decide (pos ≤ i) && itemBit rem its (i - pos))) := by
  induction its generalizing rem R pos with
  | nil => simp [scan, itemBit_nil]
  | cons it its ih =>
    rw [scan_cons, ih, Nat.testBit_or, Nat.testBit_shiftLeft, Nat.testBit_bool_toNat]
    by_cases hlt : i < pos
    · simp [show ¬ pos ≤ i by omega, show ¬ pos + 1 ≤ i by omega]
    obtain ⟨j, rfl⟩ := Nat.exists_eq_add_of_le (Nat.le_of_not_lt hlt)
    cases j with
    | zero => simp [itemBit_cons_zero]
    | succ j =>
      have hrest : pos + (j + 1) - (pos + 1) = j := by omega
      simp [itemBit_cons_succ, hrest, show pos + 1 ≤ pos + (j + 1) by omega]

end Scan

theorem testBit_accumulate (items : List Item) (fields : List PackField) (i : Nat) :
    (accumulate items fields).testBit i = itemBit (patternOf fields) items.reverse i := by
  simp [accumulate, testBit_scan]

/-- Settles O40: the closed form is proved for a scan that has begun, by induction on the items left. -/
theorem scanClosedForm : Obligations.ScanClosedForm :=
  testBit_accumulate

/-- The result has no bit at or above the template's length (rule R123). -/
theorem accumulate_lt (items : List Item) (fields : List PackField) :
    accumulate items fields < 2 ^ items.length := by
  refine Nat.lt_pow_two_of_testBit _ fun i hi => ?_
  rw [testBit_accumulate, itemBit, List.getElem?_eq_none (by simpa using hi)]

/-- An item's occurrences before its own position are fewer than all of them. -/
theorem count_take_lt_count {its : List Item} {j : Nat} {it : Item} (h : its[j]? = some it) :
    (its.take j).count it < its.count it := by
  obtain ⟨hj, rfl⟩ := List.getElem?_eq_some_iff.mp h
  calc (its.take j).count its[j]
      < (its.take j).count its[j] + (its.drop j).count its[j] :=
        Nat.lt_add_of_pos_right (List.count_pos_iff.mpr
          (List.drop_eq_getElem_cons hj ▸ List.mem_cons_self))
    _ = its.count its[j] := by rw [← List.count_append, List.take_append_drop]

/-- The scan reads of a pattern only the bits below the letter's count (rule R124). -/
theorem accumulate_eq_of_low_bits {items : List Item} {fields fields' : List PackField}
    (h : ∀ x, ∀ k < letterCount items x,
      (patternOf fields x).testBit k = (patternOf fields' x).testBit k) :
    accumulate items fields = accumulate items fields' := by
  refine Nat.eq_of_testBit_eq fun i => ?_
  rw [testBit_accumulate, testBit_accumulate, itemBit, itemBit]
  match hit : items.reverse[i]? with
  | none => rfl
  | some (.lit b) => rfl
  | some (.field x) => exact h x _ ((count_take_lt_count hit).trans_eq List.count_reverse)

end Sys2Proof.Proofs

/-! ## The words of a result, and reading them back (rules R31, R32, R126) -/

namespace Sys2Proof.Proofs

open Sys2Proof.Machine Sys2Proof.Safety

theorem wordBytes_ofNat (m : Nat) :
    wordBytes (BitVec.ofNat 16 (m &&& 0xFFFF)) = [BitVec.ofNat 8 m, BitVec.ofNat 8 (m >>> 8)] := by
  have hmask : m &&& 0xFFFF = m % 2 ^ 16 := Nat.and_two_pow_sub_one_eq_mod m 16
  have hbyte (k : Nat) (hk : k ≤ 8) :
      (BitVec.ofNat 16 (m % 2 ^ 16)).extractLsb' k 8 = BitVec.ofNat 8 (m >>> k) := by
    apply BitVec.eq_of_getLsbD_eq
    intro i hi
    have hki : k + i < 16 := by omega
    rw [BitVec.getLsbD_extractLsb', BitVec.getLsbD_ofNat, BitVec.getLsbD_ofNat,
      Nat.testBit_mod_two_pow, Nat.testBit_shiftRight]
    simp [hi, hki]
  rw [hmask, wordBytes, hbyte 0 (by decide), hbyte 8 (by decide), Nat.shiftRight_zero]

theorem resultBytes_one (R : Nat) :
    resultBytes R 1 = [BitVec.ofNat 8 R, BitVec.ofNat 8 (R >>> 8)] := by
  change wordBytes (BitVec.ofNat 16 (R >>> 0 &&& 0xFFFF)) ++ [] = _
  rw [wordBytes_ofNat]
  rfl

theorem resultBytes_two (R : Nat) :
    resultBytes R 2 = [BitVec.ofNat 8 (R >>> 16), BitVec.ofNat 8 (R >>> 24),
      BitVec.ofNat 8 R, BitVec.ofNat 8 (R >>> 8)] := by
  change wordBytes (BitVec.ofNat 16 (R >>> 16 &&& 0xFFFF)) ++
    (wordBytes (BitVec.ofNat 16 (R >>> 0 &&& 0xFFFF)) ++ []) = _
  rw [wordBytes_ofNat, wordBytes_ofNat, ← Nat.shiftRight_add]
  rfl

/-- Two adjacent groups of bits, put back side by side. -/
theorem shiftLeft_or_mod_two_pow (m j k : Nat) :
    ((m >>> k) % 2 ^ j) <<< k ||| m % 2 ^ k = m % 2 ^ (k + j) := by
  rw [← Nat.shiftLeft_add_eq_or_of_lt (Nat.mod_lt m (Nat.two_pow_pos k)), Nat.shiftLeft_eq,
    Nat.shiftRight_eq_div_pow, pow_add, Nat.mod_mul, Nat.add_comm, Nat.mul_comm]

/-- The bytes of one word or two give back the result they were cut from. -/
theorem resultOf_resultBytes {R T : Nat} (hT : T = 16 ∨ T = 32) (hR : R < 2 ^ T) :
    resultOf (resultBytes R (T / Config.wordBits)) = R := by
  have hword (m : Nat) :
      (BitVec.ofNat 8 (m >>> 8)).toNat <<< 8 ||| (BitVec.ofNat 8 m).toNat = m % 2 ^ 16 := by
    simpa only [BitVec.toNat_ofNat] using shiftLeft_or_mod_two_pow m 8 8
  obtain rfl | rfl := hT
  · change resultOf (resultBytes R 1) = R
    rw [resultBytes_one, resultOf, hword, Nat.mod_eq_of_lt hR]
  · change resultOf (resultBytes R 2) = R
    rw [resultBytes_two, resultOf, hword, Nat.shiftRight_add R 16 8, hword,
      shiftLeft_or_mod_two_pow, Nat.mod_eq_of_lt hR]

end Sys2Proof.Proofs

/-! ## Unpacking what PACK appends (rule R130) -/

namespace Sys2Proof.Proofs

open Sys2Proof.Machine Sys2Proof.Safety

/-- From bit `i` upward `R` holds what the scan of the items puts there. -/
def HoldsScan (rem : Letter → Nat) (its : List Item) (R i : Nat) : Prop :=
  ∀ j, R.testBit (i + j) = itemBit rem its j

section HoldsScan

variable {rem : Letter → Nat} {it : Item} {its : List Item} {R i : Nat}

theorem HoldsScan.head (h : HoldsScan rem (it :: its) R i) : R.testBit i = nextBit rem it :=
  (h 0).trans (itemBit_cons_zero rem it its)

theorem HoldsScan.tail (h : HoldsScan rem (it :: its) R i) :
    HoldsScan (popItem rem it) its R (i + 1) := by
  intro j
  rw [← itemBit_cons_succ, ← h, Nat.add_assoc, Nat.add_comm 1 j]

theorem HoldsScan.literalsAgree (h : HoldsScan rem its R i) : literalsAgree its R i = true := by
  induction its generalizing rem i with
  | nil => rfl
  | cons it its ih =>
    cases it with
    | lit b => simp [Safety.literalsAgree, h.head, nextBit, ih h.tail]
    | field x => exact ih h.tail

/-- The lowest bit of a field and the field above it, put side by side at `cnt`. -/
theorem testBit_zero_shiftLeft_or (p n cnt : Nat) :
    (p.testBit 0).toNat <<< cnt ||| ((p >>> 1) % 2 ^ n) <<< (cnt + 1) = (p % 2 ^ (n + 1)) <<< cnt := by
  have hlow : (p.testBit 0).toNat = p % 2 ^ 1 := by
    rw [Nat.toNat_testBit, pow_zero, Nat.div_one, pow_one]
  rw [hlow, Nat.add_comm cnt 1, Nat.shiftLeft_add, ← Nat.shiftLeft_or_distrib, Nat.lor_comm,
    shiftLeft_or_mod_two_pow, Nat.add_comm 1 n]

/-- Collecting a letter's bits gives what remains of its pattern, cut to the occurrences left. -/
theorem HoldsScan.collect (h : HoldsScan rem its R i) (x : Letter) (cnt f : Nat) :
    collect x its R i cnt f = f ||| (rem x % 2 ^ its.count (.field x)) <<< cnt := by
  induction its generalizing rem i cnt f with
  | nil => simp [Safety.collect, Nat.mod_one]
  | cons it its ih =>
    cases it with
    | lit b => simpa [Safety.collect, popItem] using ih h.tail cnt f
    | field y =>
      rw [Safety.collect]
      split_ifs with hy
      · subst hy
        rw [ih h.tail, h.head, List.count_cons_self, Nat.lor_assoc, ← testBit_zero_shiftLeft_or]
        simp [nextBit, popItem, popShift]
      · simp [ih h.tail, popItem, popShift, hy, Ne.symm hy]

end HoldsScan

theorem holdsScan_accumulate (items : List Item) (fields : List PackField) :
    HoldsScan (patternOf fields) items.reverse (accumulate items fields) 0 := by
  intro j
  rw [Nat.zero_add, testBit_accumulate]

/-- Unpacking undoes the scan: every letter's pattern comes back cut to the letter's count. -/
theorem unpack_accumulate (items : List Item) (fields : List PackField) (x : Letter) :
    unpack items (accumulate items fields) x = patternOf fields x % 2 ^ letterCount items x := by
  rw [unpack, (holdsScan_accumulate items fields).collect, List.count_reverse, Nat.zero_or,
    Nat.shiftLeft_zero, letterCount]

/-- In an operand list that names no letter twice, a triple gives its letter's pattern. -/
theorem patternOf_of_mem {fields : List PackField} (hnodup : (fieldLetters fields).Nodup)
    {f : PackField} (hf : f ∈ fields) : patternOf fields f.letter = f.value := by
  unfold patternOf
  cases hfind : fields.find? fun g => decide (g.letter = f.letter) with
  | none => simpa using List.find?_eq_none.mp hfind f hf
  | some g =>
    have hletter : g.letter = f.letter := by simpa using List.find?_some hfind
    have hgf : g = f := List.inj_on_of_nodup_map hnodup (List.mem_of_find?_eq_some hfind) hf hletter
    rw [hgf]

/-- Settles O41: the bytes read back are the scan's result, which is below `2 ^ T`, and unpacking undoes
the scan. -/
theorem packRoundTrip : Obligations.PackRoundTrip := by
  intro fields template items bs hparse hpack
  obtain ⟨items', hparse', hnodup, -, -, hT, rfl⟩ := (packBytes_eq_ok _ _ _).mp hpack
  obtain rfl : items = items' := Except.ok.inj (hparse.symm.trans hparse')
  rw [resultOf_resultBytes hT (accumulate_lt items fields)]
  refine ⟨fun f hf => ?_, (holdsScan_accumulate items fields).literalsAgree⟩
  rw [unpack_accumulate, patternOf_of_mem hnodup hf]

end Sys2Proof.Proofs

/-! ## What PACK depends on (rules R124, R126, R128, R129) -/

namespace Sys2Proof.Proofs

open Sys2Proof.Machine Sys2Proof.Safety

theorem exec_pack (fields : List PackField) (template : String) (s : State) :
    exec (.pack fields template) s = appendCommand s (packBytes fields template) := rfl

/-- Settles O37: the bytes are those of one word or two of the result. -/
theorem packAppendsWords : Obligations.PackAppendsWords := by
  intro fields template items s hf hparse ⟨hnodup, hletters⟩ hwidths
  have happ (hT : items.length = 16 ∨ items.length = 32) :
      exec (.pack fields template) s =
        appends s (resultBytes (accumulate items fields) (items.length / Config.wordBits)) := by
    have hbytes := (packBytes_eq_ok fields template _).mpr
      ⟨items, hparse, hnodup, hletters, hwidths, hT, rfl⟩
    rw [exec_pack, hbytes]
    exact appendCommand_ok s _ hf
  constructor
  · intro hT
    rw [happ (.inl hT), hT, ← resultBytes_one]
    rfl
  · intro hT
    rw [happ (.inr hT), hT, ← resultBytes_two]
    rfl

/-- PACK compares the templates' items, the letters and the declared widths, and scans only after these
tests have passed (rule R203). -/
theorem packBytes_congr {fields fields' : List PackField} {template template' : String}
    (hparse : parseTemplate template = parseTemplate template')
    (hletters : (fieldLetters fields).Perm (fieldLetters fields'))
    (hwidths : ∀ items, (∀ f ∈ fields, f.width = letterCount items f.letter) ↔
      ∀ f ∈ fields', f.width = letterCount items f.letter)
    (hscan : ∀ items, (fieldLetters fields).Nodup →
      (∀ f ∈ fields, f.width = letterCount items f.letter) →
      accumulate items fields = accumulate items fields') :
    packBytes fields template = packBytes fields' template' := by
  unfold packBytes
  rw [← hparse]
  cases parseTemplate template with
  | error c => rfl
  | ok items =>
    have hrepeat : noRepeat (fieldLetters fields') = noRepeat (fieldLetters fields) := by
      simp only [noRepeat, hletters.nodup_iff]
    have hsame : sameLetters (fieldLetters fields') items = sameLetters (fieldLetters fields) items := by
      rw [Bool.eq_iff_iff, sameLetters_iff, sameLetters_iff]
      simp only [hletters.mem_iff]
    have hall : (fields'.all fun f => decide (f.width = letterCount items f.letter)) =
        fields.all fun f => decide (f.width = letterCount items f.letter) := by
      rw [Bool.eq_iff_iff, List.all_eq_true, List.all_eq_true]
      simpa using (hwidths items).symm
    simp only [except_ok_bind, require_bind, hrepeat, hsame, hall]
    split_ifs with hnodup _ hw
    · rw [hscan items ((noRepeat_iff _).mp hnodup) (by simpa using hw)]
    all_goals rfl

/-- Spaces have no effect on the items (rule R121). -/
theorem parseChars_filter_spaces (cs : List Char) :
    parseChars (cs.filter (· != ' ')) = parseChars cs := by
  induction cs with
  | nil => rfl
  | cons c cs ih =>
    by_cases hc : c = ' '
    · simp [hc, parseChars, ih]
    · simp [hc, parseChars, ih]

theorem patternOf_eq_zero {fields : List PackField} {x : Letter} (hx : x ∉ fieldLetters fields) :
    patternOf fields x = 0 := by
  have hfind : fields.find? (fun f => decide (f.letter = x)) = none := by
    simpa [fieldLetters] using hx
  rw [patternOf, hfind]

/-- As a map from letters to patterns an operand list has no order (rule R128). -/
theorem patternOf_perm {fields fields' : List PackField} (hperm : fields.Perm fields')
    (hnodup : (fieldLetters fields).Nodup) : patternOf fields = patternOf fields' := by
  have hletters : (fieldLetters fields).Perm (fieldLetters fields') := hperm.map _
  funext x
  by_cases hx : x ∈ fieldLetters fields
  · obtain ⟨f, hf, rfl⟩ := List.mem_map.mp hx
    rw [patternOf_of_mem hnodup hf,
      patternOf_of_mem (hletters.nodup_iff.mp hnodup) (hperm.mem_iff.mp hf)]
  · rw [patternOf_eq_zero hx, patternOf_eq_zero (hletters.mem_iff.not.mp hx)]

/-- Settles O42: the items, the tests and the map from letters to patterns are the same. -/
theorem packIgnoresOrderAndSpacing : Obligations.PackIgnoresOrderAndSpacing := by
  intro fields fields' template template' s hperm hspaces
  have hparse : parseTemplate template = parseTemplate template' := by
    rw [parseTemplate, parseTemplate, ← parseChars_filter_spaces, hspaces, parseChars_filter_spaces]
  refine congrArg (appendCommand s) (packBytes_congr hparse (hperm.map _) (by simp [hperm.mem_iff]) ?_)
  intro items hnodup _
  rw [accumulate, accumulate, patternOf_perm hperm hnodup]

/-- A triple whose pattern is cut to its declared width. -/
def cutField (f : PackField) : PackField := { f with value := f.value % 2 ^ f.width }

theorem patternOf_map_cutField {fields : List PackField} {w : Letter → Nat}
    (hw : ∀ f ∈ fields, f.width = w f.letter) (x : Letter) :
    patternOf (fields.map cutField) x = patternOf fields x % 2 ^ w x := by
  have hcut : (fun f => decide (f.letter = x)) ∘ cutField = fun f => decide (f.letter = x) := rfl
  unfold patternOf
  rw [List.find?_map, hcut]
  cases hfind : fields.find? fun f => decide (f.letter = x) with
  | none => simp
  | some f =>
    have hletter : f.letter = x := by simpa using List.find?_some hfind
    simp [cutField, hw f (List.mem_of_find?_eq_some hfind), hletter]

/-- Settles O43: the tests see no pattern, and where the declared widths are the letters' counts the
scan reads no bit that the cut takes away. -/
theorem packDropsHighPatternBits : Obligations.PackDropsHighPatternBits := by
  intro fields template s
  have hletters : fieldLetters fields = fieldLetters (fields.map cutField) := by
    rw [fieldLetters, fieldLetters, List.map_map]
    rfl
  refine congrArg (appendCommand s) (packBytes_congr rfl (.of_eq hletters) (by simp) ?_)
  intro items _ hwidths
  change accumulate items fields = accumulate items (fields.map cutField)
  refine accumulate_eq_of_low_bits fun x k hk => ?_
  simp [patternOf_map_cutField hwidths, Nat.testBit_mod_two_pow, hk]

/-- Settles O44: PACK hands the same bytes or the same cause to both states. -/
theorem packDependsOnOperandsOnly : Obligations.PackDependsOnOperandsOnly := by
  intro fields template s s' hs hs'
  simp only [exec_pack]
  cases packBytes fields template with
  | ok bs =>
    exact ⟨_, _, appendCommand_ok s bs hs, appendCommand_ok s' bs hs', rfl, bs,
      memory_append_map_snd s.out bs, memory_append_map_snd s'.out bs⟩
  | error c =>
    exact ⟨_, _, appendCommand_error s c hs, appendCommand_error s' c hs', rfl, [], by simp, by simp⟩

end Sys2Proof.Proofs

/-! ## The offset resolver's commands (rules R141 to R145) -/

namespace Sys2Proof.Proofs

open Sys2Proof.Machine Sys2Proof.Safety

/-- An absolute offset is its own address (rule R141). -/
theorem resAbs_absolute (len : Nat) (addr : U32) : resAbs len (.absolute addr) = .ok addr := by
  rw [resAbs_eq, if_pos (resolves_absolute len addr), offsetTarget, BitVec.ofInt_natCast,
    BitVec.ofNat_toNat, BitVec.setWidth_eq]

/-- Settles O34: an absolute offset is its own address; a relative one answers its target unwrapped
where it resolves and faults elsewhere. -/
theorem resolveAbsolute : Obligations.ResolveAbsolute := by
  intro s hf
  refine ⟨fun _ => rfl, fun addr => pureCommand_map_of_ok hf (resAbs_absolute s.len addr),
    fun d hres => ?_, fun d hout => ?_⟩
  · exact ⟨_, resAbs_toNat s.len (.relative d) hres,
      pureCommand_answers_of_test hf (resAbs_eq s.len (.relative d)) hres⟩
  · have hnot : ¬ Resolves s.len (.relative d) := by
      rw [resolves_relative]
      omega
    exact pureCommand_faults_of_not_test hf (resAbs_eq s.len (.relative d)) hnot

/-- Half of an even target in `u32` is below `2 ^ 31` and doubles back to it (rule R142). -/
theorem two_mul_toNat_half {len : Nat} {off : Offset} (hres : Resolves len off)
    (heven : offsetTarget len off % 2 = 0) :
    2 * ((BitVec.ofNat 32 (offsetTarget len off / 2).toNat).toNat : Int) = offsetTarget len off ∧
      (BitVec.ofNat 32 (offsetTarget len off / 2).toNat).toNat ≤ 2 ^ 31 - 1 := by
  obtain ⟨-, hl, hu⟩ := hres
  rw [BitVec.toNat_ofNat]
  omega

/-- RES.ABS2's two tests in their order (rule R142). -/
theorem exec_resAbs2 (off : Offset) {s : State} (hf : s.fault = false) :
    exec (.resAbs2 off) s =
      if Resolves s.len off then
        if offsetTarget s.len off % 2 = 0 then
          answers s (.u32 (BitVec.ofNat 32 (offsetTarget s.len off / 2).toNat))
        else faults s .absOdd
      else faults s .offsetRange := by
  have he := resAbs2_eq s.len off
  split_ifs at he ⊢
  · exact pureCommand_map_of_ok hf he
  · exact pureCommand_map_of_error hf he
  · exact pureCommand_map_of_error hf he

/-- Settles O35: the tests one by one, and the half doubles back to the target. -/
theorem resolveAbsoluteHalved : Obligations.ResolveAbsoluteHalved := by
  intro off s hf
  rw [exec_resAbs2 off hf]
  refine ⟨rfl, fun hnot => if_neg hnot, fun hres hodd => ?_, fun hres heven => ?_⟩
  · rw [if_pos hres, if_neg hodd]
  · obtain ⟨hdouble, hle⟩ := two_mul_toNat_half hres heven
    exact ⟨_, hdouble, hle, by rw [if_pos hres, if_pos heven]⟩

/-- A relative offset's difference from `LEN` is its own count (rule R143). -/
theorem ofInt_relative_sub_len (len : Nat) (d : I32) :
    BitVec.ofInt 32 (offsetTarget len (.relative d) - len) = d := by
  rw [offsetTarget, add_sub_cancel_left, BitVec.ofInt_toInt]

/-- Settles O36: RES.REL tests that the offset resolves and the difference is an `i32`, which then is
stored unwrapped. -/
theorem resolveRelative : Obligations.ResolveRelative := by
  intro off s hf
  refine ⟨rfl, fun h => ?_, pureCommand_faults_of_not_test hf (resRel_eq s.len off)⟩
  have ⟨_, hl, hu⟩ := h
  refine ⟨_, BitVec.toInt_ofInt_eq_self (by decide) hl hu,
    pureCommand_answers_of_test hf (resRel_eq s.len off) h, ?_⟩
  rintro d rfl
  exact ofInt_relative_sub_len s.len d

end Sys2Proof.Proofs

/-! ## The dispatcher's selections (rules R82, R151 to R153) -/

namespace Sys2Proof.Proofs

open Sys2Proof.Machine Sys2Proof.Safety

/-- The three index pairs differ (rule R242 (a)). -/
abbrev IndexPairsDiffer (P : Config.Params) : Prop :=
  P.idx .A ≠ P.idx .B ∧ P.idx .A ≠ P.idx .C ∧ P.idx .B ≠ P.idx .C

@[simp] theorem modeShape_modeOf (tag : ModeTag) (p : RegisterPair) :
    modeShape (modeOf tag p) = some (tag, p) := by
  cases tag <;> rfl

@[simp] theorem dispShape_modeOf (tag : ModeTag) (p : RegisterPair) : dispShape (modeOf tag p) = none := by
  cases tag <;> rfl

theorem require_eq_error (b : Bool) (x c : Cause) : require b x = .error c ↔ b = false ∧ c = x := by
  cases b <;> simp [require, eq_comm]

section Selection

variable {P : Config.Params} {cls : AccessClass} {am : AddressingMode} {tag : ModeTag} {p : RegisterPair}
  {q : Nat} {i : IndexName} {c : Cause}

/-- Where the index pairs differ, each is found under its own name (rule R82). -/
theorem indexOf_idx (hP : IndexPairsDiffer P) (i : IndexName) : indexOf P (P.idx i) = some i := by
  obtain ⟨hAB, hAC, hBC⟩ := hP
  unfold indexOf
  cases i with
  | A => rw [if_pos rfl]
  | B => rw [if_neg hAB.symm, if_pos rfl]
  | C => rw [if_neg hAC.symm, if_neg hBC.symm, if_pos rfl]

theorem indexOf_eq_none (hp : ∀ i, p ≠ P.idx i) : indexOf P p = none := by
  rw [indexOf, if_neg (hp .A), if_neg (hp .B), if_neg (hp .C)]

theorem selMode_modeOf (hi : indexOf P p = some i) :
    selMode P cls (modeOf tag p) = orModeInvalid (P.modeTable cls i tag) :=
  selMode_eq P cls tag p _ i (modeShape_modeOf tag p) hi

theorem selMode_no_index (hi : indexOf P p = none) :
    selMode P cls (modeOf tag p) = .error .modeInvalid := by
  simp [selMode, hi, orModeInvalid]

theorem selMode_disp : selMode P cls (.disp p q) = .error .modeInvalid := rfl

/-- SEL.DISP on an index pair with a cell: the displacement is tested last (rules R153, R203). -/
theorem selDisp_of_cell {e : DispEntry} (hi : indexOf P p = some i) (hmem : i ∈ P.dispPairs)
    (he : P.dispTable cls i = some e) :
    selDisp P cls (.disp p q) = if q ≤ Config.dispMax then .ok e else .error .immRange := by
  simp [selDisp, dispShape, hi, hmem, he, orModeInvalid, require_bind]

theorem selDisp_of_no_cell (hi : indexOf P p = some i)
    (h : i ∉ P.dispPairs ∨ P.dispTable cls i = none) :
    selDisp P cls (.disp p q) = .error .modeInvalid := by
  obtain hmem | he := h
  · simp [selDisp, dispShape, hi, hmem, orModeInvalid, require_bind]
  · simp [selDisp, dispShape, hi, he, orModeInvalid, require_bind]

theorem selDisp_no_index (hi : indexOf P p = none) :
    selDisp P cls (.disp p q) = .error .modeInvalid := by
  simp [selDisp, dispShape, hi, orModeInvalid]

theorem selDisp_modeOf : selDisp P cls (modeOf tag p) = .error .modeInvalid := by
  simp [selDisp, orModeInvalid]

/-- What SEL.MODE answers is a cell of the class. -/
theorem selMode_ok {e : ModeEntry} (h : selMode P cls am = .ok e) :
    ∃ i tag, P.modeTable cls i tag = some e := by
  simp only [selMode, bind_eq_ok, orModeInvalid_eq_ok] at h
  obtain ⟨shape, -, i, -, he⟩ := h
  exact ⟨i, shape.1, he⟩

/-- The three tests of SEL.MODE fault alike (rule R152). -/
theorem selMode_error (h : selMode P cls am = .error c) : c = .modeInvalid := by
  simp only [selMode, bind_eq_error, orModeInvalid_eq_error] at h
  obtain ⟨-, hc⟩ | ⟨_, -, h⟩ := h -- a `Disp` value
  · exact hc
  obtain ⟨-, hc⟩ | ⟨_, -, -, hc⟩ := h -- no index pair, or an INVALID cell
  · exact hc
  · exact hc

/-- What SEL.DISP answers is a cell of the class. -/
theorem selDisp_ok {e : DispEntry} (h : selDisp P cls am = .ok e) :
    ∃ i, P.dispTable cls i = some e := by
  simp only [selDisp, bind_eq_ok, orModeInvalid_eq_ok] at h
  obtain ⟨_, -, i, -, _, -, _, he, _, -, ⟨⟩⟩ := h
  exact ⟨i, he⟩

/-- The tests of SEL.DISP in their order; only the last has its own cause (rules R153, R203). -/
theorem selDisp_error (h : selDisp P cls am = .error c) : c = .modeInvalid ∨ c = .immRange := by
  simp only [selDisp, bind_eq_error, orModeInvalid_eq_error, require_eq_error] at h
  obtain ⟨-, hc⟩ | ⟨_, -, h⟩ := h -- another shape than `Disp`
  · exact .inl hc
  obtain ⟨-, hc⟩ | ⟨_, -, h⟩ := h -- no index pair
  · exact .inl hc
  obtain ⟨-, hc⟩ | ⟨_, -, h⟩ := h -- not in `DISP_PAIRS`
  · exact .inl hc
  obtain ⟨-, hc⟩ | ⟨_, -, h⟩ := h -- an INVALID cell
  · exact .inl hc
  obtain ⟨-, hc⟩ | ⟨_, -, ⟨⟩⟩ := h -- the displacement
  exact .inr hc

end Selection

theorem params_indexPairsDiffer : IndexPairsDiffer params := by decide

/-- Settles O45: an index pair selects its own row of the table, and the other inputs miss a test. -/
theorem selectMode : Obligations.SelectMode := by
  intro cls s hf
  refine ⟨fun _ => rfl, fun i tag e he => pureCommand_map_of_ok hf ?_,
    fun i tag he => pureCommand_map_of_error hf ?_,
    fun p tag hp => pureCommand_map_of_error hf (selMode_no_index (indexOf_eq_none hp)),
    fun p q => pureCommand_map_of_error hf selMode_disp⟩
  all_goals rw [selMode_modeOf (indexOf_idx params_indexPairsDiffer i), he, orModeInvalid]

/-- Settles O46: an index pair of `DISP_PAIRS` with a cell leaves the displacement's test. -/
theorem selectDisplacement : Obligations.SelectDisplacement := by
  intro cls s hf
  have hidx := indexOf_idx params_indexPairsDiffer
  refine ⟨fun _ => rfl, fun i q e hmem he => ?_,
    fun i q h => pureCommand_map_of_error hf (selDisp_of_no_cell (hidx i) h),
    fun p q hp => pureCommand_map_of_error hf (selDisp_no_index (indexOf_eq_none hp)),
    fun p tag => pureCommand_map_of_error hf selDisp_modeOf⟩
  have hsel := selDisp_of_cell (q := q) (hidx i) hmem he
  exact ⟨pureCommand_answers_of_test hf hsel,
    fun hq => pureCommand_faults_of_not_test hf hsel (Nat.not_le_of_lt hq)⟩

/-- Settles O47: an index pair is found under its own name, which selects the row of each table. -/
theorem selectionFollowsAnyTables : Obligations.SelectionFollowsAnyTables := by
  intro P hAB hAC hBC cls i tag q
  have hi : indexOf P (P.idx i) = some i := indexOf_idx ⟨hAB, hAC, hBC⟩ i
  refine ⟨selMode_modeOf hi, ?_⟩
  cases he : P.dispTable cls i with
  | none => exact selDisp_of_no_cell hi (.inr he)
  | some e =>
    dsimp only
    split_ifs with hmem hq
    · exact (selDisp_of_cell hi hmem he).trans (if_pos hq)
    · exact (selDisp_of_cell hi hmem he).trans (if_neg hq)
    · exact selDisp_of_no_cell hi (.inl hmem)

end Sys2Proof.Proofs

/-! ## EMIT with a template that passes its tests (rules R155, R170, R171) -/

namespace Sys2Proof.Proofs

open Sys2Proof.Machine Sys2Proof.Safety

/-- A slot gives its own letter, if it has one, at its width in the template (rule R170 part C). -/
theorem encodeSlot_fields {P : Config.Params} {len : Nat} {w : Letter → Nat} {sl : TypedSlot}
    {fs : List PackField} (h : encodeSlot P len w sl = .ok fs) :
    fieldLetters fs = (slotLetter? sl).toList ∧ ∀ f ∈ fs, f.width = w f.letter := by
  cases sl with
  | rel x o | abs2 x o =>
    obtain ⟨_, -, h⟩ := (bind_eq_ok _ _ _).mp h
    obtain ⟨v, -, rfl⟩ := (map_eq_ok _ _ _).mp h
    simp [fieldAt, fieldLetters, slotLetter?]
  | reg | pair | uimm | simm | fixed =>
    obtain ⟨v, -, rfl⟩ := (map_eq_ok _ _ _).mp h
    simp [fieldAt, fieldLetters, slotLetter?]

/-- The operand list names the slots' letters in slot order, each at its width in the template. -/
theorem encodeSlots_fields {P : Config.Params} {len : Nat} {w : Letter → Nat} {slots : List TypedSlot}
    {fs : List PackField} (h : encodeSlots P len w slots = .ok fs) :
    fieldLetters fs = slotLetters slots ∧ ∀ f ∈ fs, f.width = w f.letter := by
  induction slots generalizing fs with
  | nil => cases h; simp [fieldLetters, slotLetters]
  | cons sl slots ih =>
    simp only [encodeSlots, bind_eq_ok] at h
    obtain ⟨f, hf, fs', hfs, ⟨⟩⟩ := h
    obtain ⟨hletters, hwidths⟩ := encodeSlot_fields hf
    obtain ⟨hletters', hwidths'⟩ := ih hfs
    constructor
    · rw [fieldLetters, List.map_append, slotLetters, List.filterMap_cons]
      change fieldLetters f ++ fieldLetters fs' = _
      rw [hletters, hletters', slotLetters]
      cases slotLetter? sl <;> rfl
    · exact List.forall_mem_append.mpr ⟨hwidths, hwidths'⟩

/-- Where the slots fault, one of them does. -/
theorem encodeSlots_error {P : Config.Params} {len : Nat} {w : Letter → Nat} {slots : List TypedSlot}
    {c : Cause} (h : encodeSlots P len w slots = .error c) :
    ∃ sl ∈ slots, encodeSlot P len w sl = .error c := by
  induction slots with
  | nil => cases h
  | cons sl slots ih =>
    simp only [encodeSlots, bind_eq_error] at h
    obtain hsl | ⟨f, -, hslots | ⟨fs, -, ⟨⟩⟩⟩ := h
    · exact ⟨sl, List.mem_cons_self, hsl⟩
    · obtain ⟨sl', hmem, hsl'⟩ := ih hslots
      exact ⟨sl', List.mem_cons_of_mem sl hmem, hsl'⟩

/-- Only the slots are left to fault: the operand list EMIT makes passes PACK's tests (rules R171, R173). -/
theorem emitBytes_of_lettersMatch (P : Config.Params) (len : Nat) {slots : List TypedSlot}
    {template : String} {items : List Item} (hparse : parseTemplate template = .ok items)
    (hletters : lettersMatch (slotLetters slots) items) (hT : items.length = 16 ∨ items.length = 32) :
    emitBytes P len slots template = (encodeSlots P len (letterCount items) slots).map fun fields =>
      resultBytes (accumulate items fields) (items.length / Config.wordBits) := by
  obtain ⟨hnodup, hsame⟩ := hletters
  have hfields : emitFields P len slots template = encodeSlots P len (letterCount items) slots := by
    rw [emitFields, hparse, except_ok_bind, require_bind, if_pos ((noRepeat_iff _).mpr hnodup),
      require_bind, if_pos ((sameLetters_iff _ _).mpr hsame)]
  rw [emitBytes, hfields]
  cases henc : encodeSlots P len (letterCount items) slots with
  | error c => rfl
  | ok fields =>
    obtain ⟨hnames, hwidths⟩ := encodeSlots_fields henc
    exact (packBytes_eq_ok _ _ _).mpr
      ⟨items, hparse, hnames ▸ hnodup, hnames ▸ hsame, hwidths, hT, rfl⟩

/-- What rule R155 asks of a table's template. -/
theorem templateOk_iff (template : String) (x : Letter) (xs : List Letter) :
    templateOk template x xs = true ↔
      ∃ items, parseTemplate template = .ok items ∧ lettersMatch xs items ∧
        (items.length = 16 ∨ items.length = 32) ∧ letterCount items x ∈ [3, 4, 5, 10] := by
  unfold templateOk
  cases parseTemplate template with
  | error c => simp
  | ok items =>
    simp [noRepeat_iff, sameLetters_iff, widthOk_iff, lettersMatch, and_assoc]

/-- With an acceptable template only a slot can fault, and the register's width has a rule (rule R155). -/
theorem emitBytes_error_of_templateOk {P : Config.Params} {len : Nat} {slots : List TypedSlot}
    {template : String} {x : Letter} {c : Cause} (hok : templateOk template x (slotLetters slots) = true)
    (h : emitBytes P len slots template = .error c) :
    ∃ w : Letter → Nat, w x ∈ [3, 4, 5, 10] ∧ ∃ sl ∈ slots, encodeSlot P len w sl = .error c := by
  obtain ⟨items, hparse, hletters, hT, hwidth⟩ := (templateOk_iff _ _ _).mp hok
  rw [emitBytes_of_lettersMatch P len hparse hletters hT, map_eq_error] at h
  exact ⟨letterCount items, hwidth, encodeSlots_error h⟩

section SlotFaults

variable {P : Config.Params} {len : Nat} {w : Letter → Nat} {x : Letter} {c : Cause}

/-- A slot that follows the operand table faults with the cause of its row. -/
theorem FollowsTable.cause_eq {sl : TypedSlot} (ht : FollowsTable P len w sl)
    (h : encodeSlot P len w sl = .error c) : c = slotCause len w sl := by
  rw [ht] at h
  cases hrow : slotFields? P len w sl with
  | none => rw [hrow] at h; cases h; rfl
  | some fs => rw [hrow] at h; cases h

theorem encodeSlot_reg_error {r : Register} (hw : w x ∈ [3, 4, 5, 10])
    (h : encodeSlot P len w (.reg x r) = .error c) : c = .regRange :=
  ((reg_followsTable P len w x r).cause_eq h).trans (if_pos hw)

theorem encodeSlot_uimm_error {v : Nat} (h : encodeSlot P len w (.uimm x v) = .error c) : c = .immRange :=
  (uimm_followsTable P len w x v).cause_eq h

end SlotFaults

end Sys2Proof.Proofs

/-! ## Right parameters (rules R155, R242) -/

namespace Sys2Proof.Proofs

open Sys2Proof.Machine Sys2Proof.Safety

theorem mem_allClasses (cls : AccessClass) : cls ∈ allClasses := by
  cases cls <;> decide

theorem mem_allIndexes (i : IndexName) : i ∈ allIndexes := by
  cases i <;> decide

theorem mem_allTags (tag : ModeTag) : tag ∈ allTags := by
  cases tag <;> decide

section RightParameters

variable {P : Config.Params} {cls : AccessClass} {i : IndexName} (hP : paramsOk P = true)

include hP

/-- Every cell of `MODE_TABLE` has an acceptable template. -/
theorem modeTable_templateOk {tag : ModeTag} {e : ModeEntry} (he : P.modeTable cls i tag = some e) :
    templateOk e.template e.regLetter [e.regLetter] = true := by
  simp only [paramsOk, Bool.and_eq_true, List.all_eq_true] at hP
  obtain ⟨⟨-, hmode⟩, -⟩ := hP
  simpa only [he] using hmode cls (mem_allClasses cls) i (mem_allIndexes i) tag (mem_allTags tag)

/-- Every cell of `DISP_TABLE` has an acceptable template. -/
theorem dispTable_templateOk {e : DispEntry} (he : P.dispTable cls i = some e) :
    templateOk e.template e.regLetter [e.regLetter, e.dispLetter] = true := by
  simp only [paramsOk, Bool.and_eq_true, List.all_eq_true] at hP
  obtain ⟨-, hdisp⟩ := hP
  simpa only [he] using hdisp cls (mem_allClasses cls) i (mem_allIndexes i)

/-- EMIT.MODE faults in its selection or in its register (rule R174). -/
theorem emitModeBytes_error {len : Nat} {reg : Register} {am : AddressingMode} {c : Cause}
    (h : emitModeBytes P len cls reg am = .error c) : c = .modeInvalid ∨ c = .regRange := by
  obtain hsel | ⟨e, hsel, hemit⟩ := (bind_eq_error _ _ _).mp h
  · exact .inl (selMode_error hsel)
  · obtain ⟨i, tag, he⟩ := selMode_ok hsel
    obtain ⟨w, hw, sl, hmem, hsl⟩ := emitBytes_error_of_templateOk (modeTable_templateOk hP he) hemit
    obtain rfl := List.mem_singleton.mp hmem
    exact .inr (encodeSlot_reg_error hw hsl)

/-- EMIT.DISP faults in its selection, in its register or in its displacement (rule R175). -/
theorem emitDispBytes_error {len : Nat} {reg : Register} {am : AddressingMode} {c : Cause}
    (h : emitDispBytes P len cls reg am = .error c) :
    c = .modeInvalid ∨ c = .immRange ∨ c = .regRange := by
  obtain hsel | ⟨e, hsel, hemit⟩ := (bind_eq_error _ _ _).mp h
  · exact (selDisp_error hsel).imp_right .inl
  · obtain ⟨i, he⟩ := selDisp_ok hsel
    obtain ⟨w, hw, sl, hmem, hsl⟩ := emitBytes_error_of_templateOk (dispTable_templateOk hP he) hemit
    obtain rfl | rfl := List.mem_pair.mp hmem
    · exact .inr (.inr (encodeSlot_reg_error hw hsl))
    · exact .inr (.inl (encodeSlot_uimm_error hsl))

end RightParameters

/-- Settles O49: what is selected is a cell of the table, whose template leaves only the operands to
fault. -/
theorem rightTablesRaiseNoTemplateFault : Obligations.RightTablesRaiseNoTemplateFault :=
  fun _ _ _ _ _ _ hP => ⟨emitModeBytes_error hP, emitDispBytes_error hP⟩

/-- Settles O48: the finite tables are computed. -/
theorem defaultParametersAreRight : Obligations.DefaultParametersAreRight := by
  unfold Obligations.DefaultParametersAreRight
  decide

end Sys2Proof.Proofs

/-! ## A displacement of 0 (rule R160) -/

namespace Sys2Proof.Proofs

open Sys2Proof.Machine Sys2Proof.Safety

/-- The item with the field `y` replaced by zeros. -/
def zeroItem (y : Letter) : Item → Item
  | .lit b => .lit b
  | .field x => if x = y then .lit false else .field x

theorem letterCount_map_zeroItem {x y : Letter} (hxy : x ≠ y) (items : List Item) :
    letterCount (items.map (zeroItem y)) x = letterCount items x := by
  unfold letterCount
  induction items with
  | nil => rfl
  | cons it items ih =>
    cases it with
    | lit b => simpa [zeroItem] using ih
    | field z => by_cases hz : z = y <;> simp_all [zeroItem, List.count_cons, Ne.symm hxy]

section ZeroPattern

variable {y : Letter} {rem : Letter → Nat} (hy : rem y = 0)

include hy

theorem nextBit_zeroItem (it : Item) : nextBit rem (zeroItem y it) = nextBit rem it := by
  cases it with
  | lit b => rfl
  | field x => by_cases hx : x = y <;> simp [zeroItem, nextBit, hx, hy]

theorem popItem_zeroItem (it : Item) : popItem rem (zeroItem y it) = popItem rem it := by
  cases it with
  | lit b => rfl
  | field x =>
    by_cases hx : x = y
    · funext z
      by_cases hz : z = y <;> simp [zeroItem, popItem, popShift, hx, hz, hy]
    · rw [zeroItem, if_neg hx]

/-- A pattern of 0 stays 0 when a bit of it is popped. -/
theorem popItem_eq_zero (it : Item) : popItem rem it y = 0 := by
  cases it with
  | lit b => exact hy
  | field x =>
    by_cases hx : y = x
    · subst hx
      simp [popItem, popShift, hy]
    · simp [popItem, popShift, hx, hy]

/-- The scan of a field whose pattern is 0 writes zeros. -/
theorem scan_map_zeroItem (its : List Item) (R pos : Nat) :
    scan (its.map (zeroItem y)) rem R pos = scan its rem R pos := by
  induction its generalizing rem R pos with
  | nil => rfl
  | cons it its ih =>
    rw [List.map_cons, scan_cons, scan_cons, nextBit_zeroItem hy, popItem_zeroItem hy,
      ih (popItem_eq_zero hy it)]

end ZeroPattern

/-- A letter that is given 0 has the pattern of one that is given nothing. -/
theorem patternOf_zero_field (f : PackField) (y : Letter) (n : Nat) :
    patternOf [f, ⟨y, 0, n⟩] = patternOf [f] := by
  funext z
  by_cases hf : f.letter = z <;> by_cases hy : y = z <;> simp [patternOf, hf, hy]

theorem accumulate_zero_field (items : List Item) (f : PackField) {y : Letter} (n : Nat) (hy : f.letter ≠ y) :
    accumulate (items.map (zeroItem y)) [f] = accumulate items [f, ⟨y, 0, n⟩] := by
  rw [accumulate, accumulate, patternOf_zero_field, ← List.map_reverse]
  exact scan_map_zeroItem (patternOf_eq_zero (by simpa [fieldLetters] using hy.symm)) ..

/-- A displacement field that is given 0 packs as a template with zeros in its place. -/
theorem emitBytes_zero_displacement (P : Config.Params) (len : Nat) {x y : Letter} (r : Register)
    {template template' : String} (hok : templateOk template x [x, y] = true)
    (hok' : templateOk template' x [x] = true)
    (hzero : (parseTemplate template).map (List.map (zeroItem y)) = parseTemplate template') :
    emitBytes P len [.reg x r, .uimm y 0] template = emitBytes P len [.reg x r] template' := by
  obtain ⟨items, hparse, hletters, hT, -⟩ := (templateOk_iff _ _ _).mp hok
  obtain ⟨items', hparse', hletters', hT', -⟩ := (templateOk_iff _ _ _).mp hok'
  have hxy : x ≠ y := by simpa using hletters.1
  rw [emitBytes_of_lettersMatch P len (slots := [.reg x r, .uimm y 0]) hparse hletters hT,
    emitBytes_of_lettersMatch P len (slots := [.reg x r]) hparse' hletters' hT']
  rw [hparse, hparse'] at hzero
  obtain rfl : items.map (zeroItem y) = items' := Except.ok.inj hzero
  simp only [encodeSlots, encodeSlot, encUimm_eq, Nat.two_pow_pos, if_true, letterCount_map_zeroItem hxy]
  cases encReg (letterCount items x) r with
  | error c => rfl
  | ok v =>
    have hacc := accumulate_zero_field items ⟨x, v, letterCount items x⟩ (letterCount items y) hxy
    simp [fieldAt, letterCount_map_zeroItem hxy, hacc]

/-- For LOAD and STORE on `IDX_B` and `IDX_C` the default template of the plain mode is the displacement
template with zeros for the displacement (rules R158, R159; log 6). -/
theorem default_plain_template {cls : AccessClass} {i : IndexName} (hcls : cls ≠ .pmread) (hi : i ≠ .A) :
    i ∈ params.dispPairs ∧ ∃ d m, params.dispTable cls i = some d ∧ params.modeTable cls i .plain = some m ∧
      m.regLetter = d.regLetter ∧
      (parseTemplate d.template).map (List.map (zeroItem d.dispLetter)) = parseTemplate m.template := by
  match cls, i with
  | .load, .B | .load, .C | .store, .B | .store, .C =>
    exact ⟨by decide, _, _, rfl, rfl, rfl, by decide⟩
  | .pmread, _ => exact absurd rfl hcls
  | _, .A => exact absurd rfl hi

/-- Settles O57: both selections are OK with the same register letter, and the plain template has zeros
for the displacement. -/
theorem zeroDisplacementWordEqualsPlain : Obligations.ZeroDisplacementWordEqualsPlain := by
  intro cls i reg s hcls hi
  have hidx : indexOf params (params.idx i) = some i := indexOf_idx params_indexPairsDiffer i
  obtain ⟨hmem, d, ⟨template', x⟩, hd, hm, rfl, hzero⟩ := default_plain_template hcls hi
  have hdisp : selDisp params cls (.disp (params.idx i) 0) = .ok d := selDisp_of_cell hidx hmem hd
  have hmode : selMode params cls (.plain (params.idx i)) = .ok ⟨template', d.regLetter⟩ :=
    (selMode_modeOf (tag := .plain) hidx).trans (by rw [hm]; rfl)
  refine congrArg (appendCommand s) ?_
  rw [emitDispBytes, emitModeBytes, hdisp, hmode]
  exact emitBytes_zero_displacement params s.len reg
    (dispTable_templateOk defaultParametersAreRight hd)
    (modeTable_templateOk defaultParametersAreRight hm) hzero

end Sys2Proof.Proofs

/-! ## The control commands (rules R178 to R181) -/

namespace Sys2Proof.Proofs

open Sys2Proof.Machine Sys2Proof.Safety

/-- Settles O2: RESET writes the block's four fields, and `LEN` of the empty `OUT` is 0. -/
theorem resetCommandGivesResetState : Obligations.ResetCommandGivesResetState :=
  ⟨rfl, fun s => ⟨(resetBlock s).respond (.ok .nothing), rfl, rfl, rfl⟩⟩

/-- Settles O58: RDLEN is a read-out, which no fault record stops. -/
theorem readLength : Obligations.ReadLength :=
  ⟨rfl, fun _ => rfl⟩

/-- A canonical memory is its bytes appended to the empty one. -/
theorem append_nil_map_snd_of_wf {m : Memory} (hw : m.wf = true) :
    Memory.append [] (m.map Prod.snd) = m := by
  have hfst : (Memory.cells 0 (m.map Prod.snd)).map Prod.fst = m.map Prod.fst := by
    rw [cells_map_fst, List.length_map, (memory_wf_iff m).mp hw, List.range_eq_range']
  change Memory.cells 0 (m.map Prod.snd) = m
  rw [← List.zip_unzip (Memory.cells 0 (m.map Prod.snd)), List.unzip_eq_map, hfst, cells_map_snd,
    ← List.unzip_fst, ← List.unzip_snd]
  exact List.zip_unzip m

/-- Indexing a canonical memory is indexing its bytes (rule R10). -/
theorem read?_of_wf {m : Memory} (hw : m.wf = true) (a : Nat) :
    m.read? a = (m.map Prod.snd)[a]? := by
  by_cases ha : a < m.length
  · have hread := read?_append_inside [] (m.map Prod.snd) a memory_nil_wf (by simpa using ha)
    rw [append_nil_map_snd_of_wf hw, List.length_nil, Nat.zero_add] at hread
    rw [hread, List.getElem?_eq_getElem]
  · rw [read?_of_length_le m hw a (by omega), List.getElem?_eq_none (by simpa using ha)]

/-- The elements at `k` indices from `a` upward, as far as they exist. -/
theorem filterMap_getElem?_range' {α : Type} (xs : List α) (a k : Nat) :
    (List.range' a k).filterMap (fun i => xs[i]?) = (xs.drop a).take k := by
  induction k generalizing a with
  | zero => simp
  | succ k ih =>
    rw [List.range'_succ, List.filterMap_cons, ih]
    by_cases ha : a < xs.length
    · rw [List.getElem?_eq_getElem ha, List.drop_eq_getElem_cons ha, List.take_succ_cons]
    · simp [ha, List.drop_eq_nil_of_le, Nat.le_of_not_lt ha, Nat.le_succ_of_le]

/-- The range read is what exists of the `n` bytes from `addr` upward (rule R180). -/
theorem readRange_of_wf {m : Memory} (hw : m.wf = true) (addr n : Nat) :
    m.readRange addr n = ((m.map Prod.snd).drop addr).take n := by
  have hread : m.read? = fun a => (m.map Prod.snd)[a]? := funext (read?_of_wf hw)
  rw [Memory.readRange, hread, filterMap_getElem?_range', List.take_eq_take_iff, List.length_drop,
    List.length_map]
  omega

/-- Settles O59: RDOUT is a read-out, and in a canonical `OUT` the range it reads is a piece of the bytes. -/
theorem readOutput : Obligations.ReadOutput :=
  ⟨fun _ _ => rfl, fun addr n s hw => by rw [← readRange_of_wf hw addr n]; rfl⟩

/-- STATUS as a number: the fault bit below the cause code (rules R17, R181). -/
theorem statusWord_toNat (s : State) :
    (statusWord s).toNat = 2 * s.cause.code.toNat + s.fault.toNat := by
  have hbit : s.fault.toNat < 2 ^ 1 := s.fault.toNat_lt
  rw [statusWord, BitVec.toNat_append, BitVec.toNat_append, BitVec.toNat_ofBool,
    ← Nat.shiftLeft_add_eq_or_of_lt hbit]
  simp [Nat.shiftLeft_eq, Nat.mul_comm]

/-- Settles O60: RDSTAT is a read-out of STATUS, whose cause code has 5 bits. -/
theorem readStatus : Obligations.ReadStatus := by
  refine ⟨rfl, fun s => ⟨statusWord s, rfl, statusWord_toNat s, ?_⟩⟩
  have hcode : s.cause.code.toNat < 2 ^ 5 := s.cause.code.isLt
  have hbit : s.fault.toNat < 2 := s.fault.toNat_lt
  rw [statusWord_toNat]
  omega

end Sys2Proof.Proofs

/-! ## What a successful encode command appends (rule R177) -/

namespace Sys2Proof.Proofs

open Sys2Proof.Machine Sys2Proof.Safety

/-- An appending command that leaves `FAULT` at 0 has appended its bytes, and there are some. -/
theorem exec_appending_ok {i : Instr} {s t : State} (ha : isAppending i = true) (hf : s.fault = false)
    (h : exec i s = .next t) (ht : t.fault = false) :
    storedBytes i s ≠ [] ∧ t = (s.append (storedBytes i s)).respond (.ok (.bytes (storedBytes i s))) := by
  obtain ⟨hl, heq⟩ | ⟨-, c, rfl⟩ := exec_appending_cases ha hf h
  · exact ⟨by rintro hnil; simp [hnil] at hl, heq⟩
  · cases ht

/-- PACK appends two bytes for each 16 items of a template of one word or two (rules R125, R126). -/
theorem packBytes_words {fields : List PackField} {template : String} {bs : List Byte}
    (h : packBytes fields template = .ok bs) :
    ∃ items n, parseTemplate template = .ok items ∧ items.length = 16 * n ∧ (n = 1 ∨ n = 2) ∧
      bs.length = 2 * n := by
  obtain ⟨items, hparse, -, -, -, hT, rfl⟩ := (packBytes_eq_ok _ _ _).mp h
  refine ⟨items, items.length / Config.wordBits, hparse, ?_, ?_, resultBytes_length _ _⟩
  all_goals
    unfold Config.wordBits
    omega

/-- Settles O22: the command has appended what PACK makes of its template, and an append is read back at
the old `LEN` and leaves the bytes below it. -/
theorem successfulAppendEffect : Obligations.SuccessfulAppendEffect := by
  rintro i s t ha ⟨hw, -, -⟩ hf h ht
  obtain ⟨hne, rfl⟩ := exec_appending_ok ha hf h ht
  obtain ⟨template, fields, htemplate, hpack⟩ := storedBytes_packed i s hne
  obtain ⟨items, n, hparse, hitems, hn, hlen⟩ := packBytes_words hpack
  refine ⟨template, items, n, storedBytes i s, htemplate, hparse, hitems, hn, hlen, ?_, rfl, ?_, ?_⟩
  · rw [respond_len, append_len, hlen]
  · intro k hk
    rw [← hlen] at hk
    rw [List.getElem?_eq_getElem hk]
    exact read?_append_inside s.out _ k hw hk
  · exact fun a hlt => read?_append_outside s.out _ a (.inl hlt)

end Sys2Proof.Proofs

/-! ## EMIT's stages, one by one (rules R170 to R173, R203) -/

namespace Sys2Proof.Proofs

open Sys2Proof.Machine Sys2Proof.Safety

theorem appendCommand_of_ok {s : State} {e : Except Cause (List Byte)} {bs : List Byte}
    (hf : s.fault = false) (he : e = .ok bs) : appendCommand s e = appends s bs :=
  he ▸ appendCommand_ok s bs hf

theorem appendCommand_of_error {s : State} {e : Except Cause (List Byte)} {c : Cause}
    (hf : s.fault = false) (he : e = .error c) : appendCommand s e = faults s c :=
  he ▸ appendCommand_error s c hf

/-- An EMIT whose operands fit its slots appends what parts A to C and PACK make of them (rule R170). -/
theorem exec_emit {entry : CatalogEntry} {operands : List Operand} {slots : List TypedSlot}
    (hb : bindSlots entry.slots operands = some slots) (s : State) :
    exec (.emit entry operands) s = appendCommand s (emitBytes params s.len slots entry.template) := by
  simp only [exec, execEmit, hb]

/-- Settles O53: after parts A to C, EMIT is PACK with their operand list. -/
theorem emitEndsAsPack : Obligations.EmitEndsAsPack := by
  intro entry operands slots fields s hb hfields
  rw [exec_emit hb, exec_pack, emitBytes, hfields, except_ok_bind]

/-- A template with an illegal character faults, wherever the character stands (rule R121). -/
theorem parseTemplate_of_illegal {template : String} (h : ∃ c ∈ template.toList, ¬ legalChar c) :
    parseTemplate template = .error .templateChar := by
  cases hparse : parseTemplate template with
  | ok items =>
    obtain ⟨c, hmem, hc⟩ := h
    exact absurd ((parseChars_ok_iff template.toList).mp ⟨items, hparse⟩ c hmem) hc
  | error c => rw [parseChars_error _ c hparse]

section Stages

variable {P : Config.Params} {len : Nat} {slots : List TypedSlot} {fields : List PackField}
  {template : String} {items : List Item} {c : Cause}

/-- Part A (rule R121). -/
theorem emitBytes_of_parse_error (hparse : parseTemplate template = .error c) :
    emitBytes P len slots template = .error c := by
  rw [emitBytes, emitFields, hparse, except_error_bind, except_error_bind]

/-- Part B where the designators are not the template's letters (rules R58, R170). -/
theorem emitBytes_of_not_lettersMatch (hparse : parseTemplate template = .ok items)
    (hletters : ¬ lettersMatch (slotLetters slots) items) :
    emitBytes P len slots template = .error .designatorMismatch := by
  rw [lettersMatch, ← noRepeat_iff, ← sameLetters_iff] at hletters
  rw [emitBytes, emitFields, hparse, except_ok_bind, require_bind]
  split_ifs with hnodup
  · rw [require_bind, if_neg fun hsame => hletters ⟨hnodup, hsame⟩, except_error_bind]
  · rw [except_error_bind]

/-- Part B where they are: part C is left. -/
theorem emitFields_of_lettersMatch (hparse : parseTemplate template = .ok items)
    (hletters : lettersMatch (slotLetters slots) items) :
    emitFields P len slots template = encodeSlots P len (letterCount items) slots := by
  obtain ⟨hnodup, hsame⟩ := hletters
  rw [emitFields, hparse, except_ok_bind, require_bind, if_pos ((noRepeat_iff _).mpr hnodup),
    require_bind, if_pos ((sameLetters_iff _ _).mpr hsame)]

/-- PACK of an operand list that fits the template's letters has only the total width to test
(rules R125, R203). -/
theorem packBytes_of_fitting (hparse : parseTemplate template = .ok items)
    (hletters : lettersMatch (fieldLetters fields) items)
    (hwidths : ∀ f ∈ fields, f.width = letterCount items f.letter) :
    packBytes fields template =
      if items.length = 16 ∨ items.length = 32 then
        .ok (resultBytes (accumulate items fields) (items.length / Config.wordBits))
      else .error .templateWidth := by
  obtain ⟨hnodup, hsame⟩ := hletters
  rw [packBytes, hparse, except_ok_bind, require_bind, if_pos ((noRepeat_iff _).mpr hnodup),
    require_bind, if_pos ((sameLetters_iff _ _).mpr hsame), require_bind, if_pos (by simpa using hwidths),
    require_bind, if_congr (widthOk_iff _) rfl rfl, except_pure]

/-- Part C where a slot faults. -/
theorem emitBytes_of_slot_error (hparse : parseTemplate template = .ok items)
    (hletters : lettersMatch (slotLetters slots) items)
    (henc : encodeSlots P len (letterCount items) slots = .error c) :
    emitBytes P len slots template = .error c := by
  rw [emitBytes, emitFields_of_lettersMatch hparse hletters, henc, except_error_bind]

/-- Part D: the operand list EMIT makes leaves PACK only the total width to test (rules R171, R173). -/
theorem emitBytes_of_encoded (hparse : parseTemplate template = .ok items)
    (hletters : lettersMatch (slotLetters slots) items)
    (henc : encodeSlots P len (letterCount items) slots = .ok fields) :
    emitBytes P len slots template =
      if items.length = 16 ∨ items.length = 32 then
        .ok (resultBytes (accumulate items fields) (items.length / Config.wordBits))
      else .error .templateWidth := by
  obtain ⟨hnames, hwidths⟩ := encodeSlots_fields henc
  rw [emitBytes, emitFields_of_lettersMatch hparse hletters, henc, except_ok_bind]
  exact packBytes_of_fitting hparse (hnames ▸ hletters) hwidths

/-- The slot after those that encode decides the cause (rule R172). -/
theorem encodeSlots_first_error {w : Letter → Nat} {pre post : List TypedSlot} {sl : TypedSlot}
    {fs : List PackField} (hpre : encodeSlots P len w pre = .ok fs)
    (hsl : encodeSlot P len w sl = .error c) :
    encodeSlots P len w (pre ++ sl :: post) = .error c := by
  rw [encodeSlots_append P len w pre (sl :: post) fs hpre, encodeSlots, hsl, except_error_bind,
    except_map_error]

end Stages

/-- Settles O52: the stages in their order, each after the ones before it have passed. -/
theorem emitFaultsInOrder : Obligations.EmitFaultsInOrder := by
  intro entry operands slots s hf hb
  simp only [exec_emit hb]
  refine ⟨fun hillegal => ?_, fun items hparse => ⟨fun hletters => ?_, fun hletters => ⟨?_, ?_⟩⟩⟩
  · exact appendCommand_of_error hf (emitBytes_of_parse_error (parseTemplate_of_illegal hillegal))
  · exact appendCommand_of_error hf (emitBytes_of_not_lettersMatch hparse hletters)
  · rintro pre sl post fs c rfl hpre hsl
    have henc := encodeSlots_first_error (post := post) hpre hsl
    exact appendCommand_of_error hf (emitBytes_of_slot_error hparse hletters henc)
  · intro fs henc h16 h32
    refine appendCommand_of_error hf ?_
    rw [emitBytes_of_encoded hparse hletters henc, if_neg (by simp [h16, h32])]

/-- A slot's letter is one of the template's, so it has a width of at least 1 (rule R53). -/
theorem one_le_letterCount {slots : List TypedSlot} {items : List Item} {sl : TypedSlot} {x : Letter}
    (hletters : lettersMatch (slotLetters slots) items) (hsl : sl ∈ slots) (hx : slotLetter? sl = some x) :
    1 ≤ letterCount items x := by
  obtain ⟨-, hsame⟩ := hletters
  have hmem : x ∈ slotLetters slots := List.mem_filterMap.mpr ⟨sl, hsl, hx⟩
  exact List.count_pos_iff.mpr ((hsame x).mp hmem)

/-- Where every slot meets its row, part C gives the rows' triples (rules R57, R170). -/
theorem encodeSlots_of_allFields? {P : Config.Params} {len : Nat} {w : Letter → Nat}
    {slots : List TypedSlot} {fields : List PackField}
    (hw : ∀ sl ∈ slots, ∀ x, slotLetter? sl = some x → 1 ≤ w x)
    (h : allFields? P len w slots = some fields) : encodeSlots P len w slots = .ok fields := by
  induction slots generalizing fields with
  | nil => cases h; rfl
  | cons sl slots ih =>
    obtain ⟨hsl, hslots⟩ := List.forall_mem_cons.mp hw
    unfold allFields? at h
    split at h
    case h_1 f fs hrow hrows =>
      cases h
      rw [encodeSlots, (slotsFollowTheOperandTable P len w sl hsl).1 f hrow, except_ok_bind,
        ih hslots hrows, except_ok_bind, except_pure]
    case h_2 => cases h

/-- Settles O50: a validated entry leaves only the slots to fault, and each gives its row's triple. -/
theorem emitAppendsEncodedOperands : Obligations.EmitAppendsEncodedOperands := by
  intro entry operands slots items fields s hf hb ⟨items', hparse', hT, hletters, _⟩ hparse hrows
  obtain rfl : items' = items := Except.ok.inj (hparse'.symm.trans hparse)
  have henc := encodeSlots_of_allFields? (fun sl hsl x => one_le_letterCount hletters hsl) hrows
  refine ⟨rfl, ?_⟩
  rw [exec_emit hb]
  exact appendCommand_of_ok hf ((emitBytes_of_encoded hparse hletters henc).trans (if_pos hT))

/-- Every way EMIT can fault (rules R170, R203). -/
theorem emitBytes_error_cases {P : Config.Params} {len : Nat} {slots : List TypedSlot}
    {template : String} {c : Cause} (h : emitBytes P len slots template = .error c) :
    (parseTemplate template = .error c ∧ c = .templateChar) ∨
    ∃ items, parseTemplate template = .ok items ∧
      ((¬ lettersMatch (slotLetters slots) items ∧ c = .designatorMismatch) ∨
       (lettersMatch (slotLetters slots) items ∧
         ∃ sl ∈ slots, c = slotCause len (letterCount items) sl) ∨
       (¬ (items.length = 16 ∨ items.length = 32) ∧ c = .templateWidth)) := by
  cases hparse : parseTemplate template with
  | error d =>
    obtain rfl : d = c := Except.error.inj ((emitBytes_of_parse_error hparse).symm.trans h)
    exact .inl ⟨rfl, parseChars_error _ d hparse⟩
  | ok items =>
    refine .inr ⟨items, rfl, ?_⟩
    by_cases hletters : lettersMatch (slotLetters slots) items
    case neg =>
      rw [emitBytes_of_not_lettersMatch hparse hletters] at h
      exact .inl ⟨hletters, (Except.error.inj h).symm⟩
    cases henc : encodeSlots P len (letterCount items) slots with
    | error d =>
      obtain rfl : d = c := Except.error.inj ((emitBytes_of_slot_error hparse hletters henc).symm.trans h)
      obtain ⟨sl, hmem, hsl⟩ := encodeSlots_error henc
      have hrow := encodeSlot_followsTable P len (letterCount items) sl fun x =>
        one_le_letterCount hletters hmem
      exact .inr (.inl ⟨hletters, sl, hmem, hrow.cause_eq hsl⟩)
    | ok fields =>
      rw [emitBytes_of_encoded hparse hletters henc] at h
      split_ifs at h with hT
      exact .inr (.inr ⟨hT, (Except.error.inj h).symm⟩)

/-- No slot faults with a cause of PACK's (rule R201). -/
theorem slotCause_not_packer (len : Nat) (w : Letter → Nat) (sl : TypedSlot) :
    slotCause len w sl ∉ [Cause.templateChar, .designatorMismatch, .widthMismatch, .templateWidth] := by
  cases sl with
  | uimm | simm | fixed => simp [slotCause]
  | reg | pair | rel | abs2 =>
    rw [slotCause]
    split_ifs <;> decide

/-- Only a plain register at a width with no rule faults REG_WIDTH (rule R110). -/
theorem slotCause_ne_regWidth {len : Nat} {w : Letter → Nat} {sl : TypedSlot}
    (h : ∀ x r, sl = .reg x r → w x ∈ [3, 4, 5, 10]) : slotCause len w sl ≠ .regWidth := by
  cases sl with
  | reg x r =>
    rw [slotCause, if_pos (h x r rfl)]
    decide
  | uimm | simm | fixed => simp [slotCause]
  | pair | rel | abs2 =>
    rw [slotCause]
    split_ifs <;> decide

/-- Settles O54: no stage faults WIDTH_MISMATCH, and a validated entry passes the stages that test the
entry and gives its registers a width with a rule. -/
theorem validatedEntryRaisesNoCatalogFault : Obligations.ValidatedEntryRaisesNoCatalogFault := by
  intro P len slots template c h
  obtain ⟨hparse, rfl⟩ | ⟨items, hparse, hstage⟩ := emitBytes_error_cases h
  · refine ⟨by decide, fun ⟨items, hparse', _⟩ => ?_⟩
    simp [hparse] at hparse'
  have hitems {items' : List Item} (hparse' : parseTemplate template = .ok items') : items' = items :=
    Except.ok.inj (hparse'.symm.trans hparse)
  obtain ⟨hletters, rfl⟩ | ⟨-, sl, hmem, rfl⟩ | ⟨hT, rfl⟩ := hstage
  · exact ⟨by decide, fun ⟨_, hparse', _, hletters', _⟩ => absurd (hitems hparse' ▸ hletters') hletters⟩
  · have hnot := slotCause_not_packer len (letterCount items) sl
    simp only [List.mem_cons, List.not_mem_nil, or_false, not_or] at hnot
    obtain ⟨hchar, hdesignator, hwidth, htotal⟩ := hnot
    refine ⟨hwidth, fun ⟨_, hparse', _, _, hregs⟩ => ⟨?_, hdesignator, htotal, hchar⟩⟩
    obtain rfl := hitems hparse'
    refine slotCause_ne_regWidth fun x r hreg => ?_
    simpa using hregs x r (hreg ▸ hmem)
  · exact ⟨by decide, fun ⟨_, hparse', hT', _⟩ => absurd (hitems hparse' ▸ hT') hT⟩

end Sys2Proof.Proofs

/-! ## The commands that select and then emit (rules R174, R175) -/

namespace Sys2Proof.Proofs

open Sys2Proof.Machine Sys2Proof.Safety

section Selected

variable {P : Config.Params} {len : Nat} {cls : AccessClass} {reg : Register} {am : AddressingMode}
  {c : Cause}

theorem emitModeBytes_of_selMode_error (h : selMode P cls am = .error c) :
    emitModeBytes P len cls reg am = .error c := by
  rw [emitModeBytes, h, except_error_bind]

theorem emitModeBytes_of_selMode {e : ModeEntry} (h : selMode P cls am = .ok e) :
    emitModeBytes P len cls reg am = emitBytes P len [.reg e.regLetter reg] e.template := by
  rw [emitModeBytes, h, except_ok_bind]

theorem emitDispBytes_of_selDisp_error (h : selDisp P cls am = .error c) :
    emitDispBytes P len cls reg am = .error c := by
  rw [emitDispBytes, h, except_error_bind]

theorem emitDispBytes_of_selDisp {e : DispEntry} (h : selDisp P cls am = .ok e) :
    emitDispBytes P len cls reg am =
      emitBytes P len [.reg e.regLetter reg, .uimm e.dispLetter (dispOf am)] e.template := by
  rw [emitDispBytes, h, except_ok_bind]

end Selected

theorem require_eq_ok (b : Bool) (x : Cause) (u : Unit) : require b x = .ok u ↔ b = true := by
  cases b <;> simp [require]

/-- What SEL.DISP admits has a displacement up to `DISP_MAX` (rule R153). -/
theorem le_dispMax_of_selDisp {P : Config.Params} {cls : AccessClass} {p : RegisterPair} {q : Nat}
    {e : DispEntry} (h : selDisp P cls (.disp p q) = .ok e) : q ≤ Config.dispMax := by
  simp only [selDisp, bind_eq_ok, orModeInvalid_eq_ok, require_eq_ok] at h
  obtain ⟨_, ⟨⟩, _, -, _, -, _, -, _, hq, -⟩ := h
  exact of_decide_eq_true hq

/-- A plain register in a field of 5 bits (rule R102). -/
theorem encodeSlot_reg_five (P : Config.Params) (len : Nat) {w : Letter → Nat} {x : Letter} (hw : w x = 5)
    (r : Register) :
    encodeSlot P len w (.reg x r) =
      if r.id.toNat ≤ 31 then .ok [⟨x, r.id.toNat, 5⟩] else .error .regRange := by
  rw [encodeSlot, hw, encReg, if_pos rfl, encReg5_eq]
  split_ifs
  · rw [except_map_ok, fieldAt, hw]
  · rfl

/-- An unsigned immediate that its field holds (rule R107). -/
theorem encodeSlot_uimm_of_lt (P : Config.Params) (len : Nat) {w : Letter → Nat} {x : Letter} {v : Nat}
    (hv : v < 2 ^ w x) : encodeSlot P len w (.uimm x v) = .ok [⟨x, v, w x⟩] := by
  rw [encodeSlot, encUimm_eq, if_pos hv, except_map_ok, fieldAt]

/-- The template has one word and its letters `xs` have the widths `ws` (rules R53, R54). -/
def oneWordWidths (template : String) (xs : List Letter) (ws : List Nat) : Bool :=
  match parseTemplate template with
  | .error _ => false
  | .ok items => decide (items.length = 16 ∧ xs.map (letterCount items) = ws)

/-- An acceptable template of one word, as its items: what EMIT needs to know of it. -/
theorem items_of_oneWordWidths {template : String} {x : Letter} {xs : List Letter} {ws : List Nat}
    (hok : templateOk template x xs = true) (hwidths : oneWordWidths template xs ws = true) :
    ∃ items, parseTemplate template = .ok items ∧ lettersMatch xs items ∧ items.length = 16 ∧
      xs.map (letterCount items) = ws := by
  obtain ⟨items, hparse, hletters, -, -⟩ := (templateOk_iff _ _ _).mp hok
  rw [oneWordWidths, hparse] at hwidths
  exact ⟨items, hparse, hletters, of_decide_eq_true hwidths⟩

theorem modeTable_widths : (allClasses.all fun cls => allIndexes.all fun i => allTags.all fun tag =>
    (params.modeTable cls i tag).all fun e => oneWordWidths e.template [e.regLetter] [5]) = true := by
  decide

theorem dispTable_widths : (allClasses.all fun cls => allIndexes.all fun i =>
    (params.dispTable cls i).all fun e =>
      oneWordWidths e.template [e.regLetter, e.dispLetter] [5, 6]) = true := by
  decide

/-- What SEL.MODE answers from the default table has one word and a register field of 5 bits
(rule R158; log 6). -/
theorem items_of_selMode {cls : AccessClass} {am : AddressingMode} {e : ModeEntry}
    (h : selMode params cls am = .ok e) :
    ∃ items, parseTemplate e.template = .ok items ∧ lettersMatch [e.regLetter] items ∧
      items.length = 16 ∧ letterCount items e.regLetter = 5 := by
  obtain ⟨i, tag, he⟩ := selMode_ok h
  have hwidths := modeTable_widths
  simp only [List.all_eq_true] at hwidths
  have hcell := hwidths cls (mem_allClasses cls) i (mem_allIndexes i) tag (mem_allTags tag)
  rw [he] at hcell
  simpa using items_of_oneWordWidths (modeTable_templateOk defaultParametersAreRight he) hcell

/-- What SEL.DISP answers from the default table has one word, a register field of 5 bits and a
displacement field of 6 (rule R159; log 6). -/
theorem items_of_selDisp {cls : AccessClass} {am : AddressingMode} {e : DispEntry}
    (h : selDisp params cls am = .ok e) :
    ∃ items, parseTemplate e.template = .ok items ∧ lettersMatch [e.regLetter, e.dispLetter] items ∧
      items.length = 16 ∧ letterCount items e.regLetter = 5 ∧ letterCount items e.dispLetter = 6 := by
  obtain ⟨i, he⟩ := selDisp_ok h
  have hwidths := dispTable_widths
  simp only [List.all_eq_true] at hwidths
  have hcell := hwidths cls (mem_allClasses cls) i (mem_allIndexes i)
  rw [he] at hcell
  simpa using items_of_oneWordWidths (dispTable_templateOk defaultParametersAreRight he) hcell

section RegisterFirst

variable {P : Config.Params} {len : Nat} {x : Letter} {r : Register} {slots : List TypedSlot}
  {template : String} {items : List Item} {fields : List PackField}
  (hparse : parseTemplate template = .ok items)
  (hletters : lettersMatch (slotLetters (.reg x r :: slots)) items) (hw : letterCount items x = 5)

include hparse hletters hw

/-- A register above 31 in a first field of 5 bits decides the cause (rules R102, R172). -/
theorem emitBytes_reg_out_of_range (hr : 31 < r.id.toNat) :
    emitBytes P len (.reg x r :: slots) template = .error .regRange := by
  have hslot := (encodeSlot_reg_five P len hw r).trans (if_neg (by omega))
  exact emitBytes_of_slot_error hparse hletters (encodeSlots_first_error (pre := []) rfl hslot)

/-- A register up to 31 in a first field of 5 bits, where the other slots encode and the template has
one word. -/
theorem emitBytes_reg_in_range (hr : r.id.toNat ≤ 31) (hT : items.length = 16)
    (hrest : encodeSlots P len (letterCount items) slots = .ok fields) :
    emitBytes P len (.reg x r :: slots) template =
      .ok (resultBytes (accumulate items (⟨x, r.id.toNat, 5⟩ :: fields)) 1) := by
  have hslot := (encodeSlot_reg_five P len hw r).trans (if_pos hr)
  have henc : encodeSlots P len (letterCount items) (.reg x r :: slots) =
      .ok (⟨x, r.id.toNat, 5⟩ :: fields) := by
    rw [encodeSlots, hslot, except_ok_bind, hrest, except_ok_bind]
    rfl
  rw [emitBytes_of_encoded hparse hletters henc, if_pos (.inl hT), hT, Config.wordBits]

end RegisterFirst

theorem exec_emitMode_of_selMode {cls : AccessClass} {reg : Register} {am : AddressingMode} {e : ModeEntry}
    (s : State) (h : selMode params cls am = .ok e) :
    exec (.emitMode cls reg am) s =
      appendCommand s (emitBytes params s.len [.reg e.regLetter reg] e.template) :=
  congrArg (appendCommand s) (emitModeBytes_of_selMode h)

theorem exec_emitDisp_of_selDisp {cls : AccessClass} {reg : Register} {p : RegisterPair} {q : Nat}
    {e : DispEntry} (s : State) (h : selDisp params cls (.disp p q) = .ok e) :
    exec (.emitDisp cls reg (.disp p q)) s = appendCommand s
      (emitBytes params s.len [.reg e.regLetter reg, .uimm e.dispLetter q] e.template) :=
  congrArg (appendCommand s) (emitDispBytes_of_selDisp h)

/-- Settles O55: the selection's fault, or the EMIT of one REG slot, whose field has 5 bits. -/
theorem emitModeIsSelectedEmit : Obligations.EmitModeIsSelectedEmit := by
  intro cls reg am s hf
  refine ⟨rfl, fun c hsel => ?_, fun e hsel => ?_⟩
  · exact appendCommand_of_error hf (emitModeBytes_of_selMode_error hsel)
  obtain ⟨items, hparse, hletters, hT, hw⟩ := items_of_selMode hsel
  rw [exec_emitMode_of_selMode s hsel]
  refine ⟨?_, fun hr => ?_, fun hr => ⟨items, hparse, hT, ?_⟩⟩
  · rw [exec_emit rfl]
  · exact appendCommand_of_error hf (emitBytes_reg_out_of_range hparse hletters hw hr)
  · exact appendCommand_of_ok hf (emitBytes_reg_in_range hparse hletters hw hr hT rfl)

/-- Settles O56: the selection's fault, or the EMIT of a REG and a UIMM slot, whose fields have 5 and
6 bits; the selection has tested the displacement. -/
theorem emitDispIsSelectedEmit : Obligations.EmitDispIsSelectedEmit := by
  intro cls reg am s hf
  refine ⟨rfl, fun c hsel => ?_, ?_⟩
  · exact appendCommand_of_error hf (emitDispBytes_of_selDisp_error hsel)
  rintro p q e rfl hsel
  obtain ⟨items, hparse, hletters, hT, hw, hwq⟩ := items_of_selDisp hsel
  have hq : q < 2 ^ letterCount items e.dispLetter := by
    rw [hwq]
    exact Nat.lt_succ_of_le (le_dispMax_of_selDisp hsel)
  have hrest : encodeSlots params s.len (letterCount items) [.uimm e.dispLetter q] =
      .ok [⟨e.dispLetter, q, 6⟩] := by
    rw [encodeSlots, encodeSlot_uimm_of_lt params s.len hq, hwq]
    rfl
  rw [exec_emitDisp_of_selDisp s hsel]
  refine ⟨?_, fun hr => ?_, fun hr => ⟨items, hparse, hT, ?_⟩⟩
  · rw [exec_emit rfl]
  · exact appendCommand_of_error hf (emitBytes_reg_out_of_range hparse hletters hw hr)
  · exact appendCommand_of_ok hf (emitBytes_reg_in_range hparse hletters hw hr hT hrest)

end Sys2Proof.Proofs

/-! ## Entering the faulted state, staying in it, leaving it (rules R204 to R206) -/

namespace Sys2Proof.Proofs

open Sys2Proof.Machine Sys2Proof.Safety

section FaultedState

variable {i : Instr} {s t : State}

/-- A command enters the faulted state by raising a fault and in no other way (rule R204). -/
theorem eq_raiseFault_of_exec_fault (hs : s.fault = false) (h : exec i s = .next t)
    (ht : t.fault = true) : t = raiseFault t.cause s := by
  cases exec_cases i s t h with
  | faulted c hf hc hb heq => subst heq; rfl
  | refused hf => simp [hs] at hf
  | answered v hf hc ha heq => simp [heq, hs] at ht
  | appended bs hf ha hb hl heq => simp [heq, hs] at ht
  | read v hc hr heq => simp [heq, hs] at ht
  | reset hr heq => simp [heq] at ht

/-- Every command but the four control commands is an attempt (rule R205). -/
theorem exec_of_faulted (hs : s.fault = true) (hc : isControl i = false) : exec i s = refuses s := by
  cases i with
  | reset | rdlen | rdout | rdstat => cases hc
  | emit entry operands =>
    rw [exec, execEmit]
    split
    · exact attempt_faulted s _ hs
    · exact attempt_faulted s _ hs
  | _ => exact attempt_faulted s _ hs

theorem rejectCommand_of_faulted (e : DecodeError) (hs : s.fault = true) :
    rejectCommand e s = refuses s := by
  cases e with
  | reservedSelector op => exact attempt_faulted s _ hs
  | illTypedOperands => exact attempt_faulted s _ hs

/-- What the faulted state keeps until RESET (rule R206). -/
def KeepsFaultRecord (s t : State) : Prop :=
  t.fault = true ∧ t.cause = s.cause ∧ t.out = s.out

theorem keepsFaultRecord_respond (hs : s.fault = true) (r : Response) : KeepsFaultRecord s (s.respond r) :=
  ⟨hs, rfl, rfl⟩

/-- In the faulted state a command other than RESET is refused or only reads. -/
theorem exec_keepsFaultRecord (hs : s.fault = true) (hne : i ≠ .reset) (h : exec i s = .next t) :
    KeepsFaultRecord s t := by
  cases exec_cases i s t h with
  | refused hf hc heq => exact heq ▸ keepsFaultRecord_respond hs _
  | read v hc hr heq => exact heq ▸ keepsFaultRecord_respond hs _
  | reset hr => exact absurd hr hne
  | answered v hf | appended bs hf | faulted c hf => simp [hs] at hf

theorem rejectCommand_keepsFaultRecord {e : DecodeError} (hs : s.fault = true)
    (h : rejectCommand e s = .next t) : KeepsFaultRecord s t := by
  rw [rejectCommand_of_faulted e hs] at h
  cases h
  exact keepsFaultRecord_respond hs _

end FaultedState

/-- Settles O14: the fault is `raiseFault`, which writes the fault record and the response and nothing
else; the cause recorded is none of code 0. -/
theorem faultEntryTouchesOnlyTheFaultRecord : Obligations.FaultEntryTouchesOnlyTheFaultRecord := by
  refine ⟨fun i s t hs h ht => ?_, fun e s t hs h => ?_⟩
  · exact ⟨exec_fault_names_cause hs h ht, eq_raiseFault_of_exec_fault hs h ht⟩
  · obtain ⟨hf, -⟩ | ⟨-, heq⟩ := rejectCommand_next e s t h
    · simp [hs] at hf
    · exact heq

/-- Settles O15: an attempt in the faulted state is refused before its body is looked at. -/
theorem faultedStateRefuses : Obligations.FaultedStateRefuses :=
  ⟨fun _ _ => exec_of_faulted, fun e _ => rejectCommand_of_faulted e⟩

/-- Settles O16: a step idles, executes or rejects, and of these only the execution of RESET touches the
record. -/
theorem onlyResetLeavesTheFaultedState : Obligations.OnlyResetLeavesTheFaultedState := by
  intro s t hs h
  obtain ⟨-, rfl⟩ | ⟨c, rest, hc, ⟨i, hd, hi⟩ | ⟨e, -, he⟩⟩ := step_cases s t h
  · exact .inl ⟨hs, rfl, rfl⟩
  · by_cases hreset : i = .reset
    · subst hreset
      cases hi
      exact .inr ⟨c, rest, hc, hd, rfl, rfl⟩
    · exact .inl (exec_keepsFaultRecord (s := { s with commands := rest }) hs hreset hi)
  · exact .inl (rejectCommand_keepsFaultRecord (s := { s with commands := rest }) hs he)

end Sys2Proof.Proofs

/-! ## The causes: their codes, and which command records which (rules R200, R201) -/

namespace Sys2Proof.Proofs

open Sys2Proof.Machine Sys2Proof.Safety

/-- The causes in the order of the table of rule R200, no fault first. -/
def allCauses : List Cause :=
  [.noFault, .regRange, .regWidth, .pairInvalid, .pairRange, .immRange, .soffRange, .fixedMismatch,
    .deltaOdd, .absOdd, .offsetRange, .modeInvalid, .designatorMismatch, .widthMismatch, .templateWidth,
    .templateChar, .badCommand]

theorem mem_allCauses (c : Cause) : c ∈ allCauses := by
  cases c <;> decide

/-- The codes count the table's rows (rule R200). -/
theorem allCauses_codes : allCauses.map (fun c => c.code.toNat) = List.range 17 := by decide

/-- Settles O18: the table's codes are 0 to 16, which repeat no number, and every cause is in the table. -/
theorem causeCodes : Obligations.CauseCodes := by
  refine ⟨allCauses_codes, fun c d hcode => ?_⟩
  have hnodup : (allCauses.map fun c => c.code.toNat).Nodup := allCauses_codes ▸ List.nodup_range
  exact List.inj_on_of_nodup_map hnodup (mem_allCauses c) (mem_allCauses d) (congrArg BitVec.toNat hcode)

section RecordedCause

variable {α : Type} {e : Except Cause α} {f : α → Value} {a : α} {x : Cause} {s t : State}
  {test : Prop} [Decidable test] (hs : s.fault = false) (ht : t.fault = true)

include hs ht

/-- A pure command that faults records the cause it has computed (rule R204). -/
theorem pureCommand_cause {r : Except Cause Value} (h : pureCommand s r = .next t) :
    r = .error t.cause := by
  obtain ⟨hf, -⟩ | ⟨-, v, -, rfl⟩ | ⟨-, c, hc, rfl⟩ := pureCommand_next s t r h
  · simp [hs] at hf
  · simp [hs] at ht
  · exact hc

/-- An appending command that faults records the cause it has computed (rule R204). -/
theorem appendCommand_cause {r : Except Cause (List Byte)} (h : appendCommand s r = .next t) :
    r = .error t.cause := by
  obtain ⟨hf, -⟩ | ⟨-, bs, -, rfl⟩ | ⟨-, c, hc, rfl⟩ := appendCommand_next s t r h
  · simp [hs] at hf
  · simp [hs] at ht
  · exact hc

theorem pureCommand_map_cause (h : pureCommand s (e.map f) = .next t) : e = .error t.cause :=
  (map_eq_error e f t.cause).mp (pureCommand_cause hs ht h)

/-- A command with one test can record only that test's cause (rule R7). -/
theorem cause_mem_of_test (he : e = if test then .ok a else .error x)
    (h : pureCommand s (e.map f) = .next t) : t.cause ∈ [x] := by
  have hcause := pureCommand_map_cause hs ht h
  rw [he] at hcause
  split_ifs at hcause
  cases hcause
  exact List.mem_singleton_self _

end RecordedCause

section ComputedCause

variable {c : Cause}

theorem encPair_error {p : RegisterPair} {n : Nat} (h : encPair p n = .error c) :
    c ∈ [Cause.regRange, .pairInvalid, .pairRange] := by
  rw [encPair_eq] at h
  split_ifs at h
  all_goals
    cases h
    decide

theorem resAbs2_error {len : Nat} {off : Offset} (h : resAbs2 len off = .error c) :
    c ∈ [Cause.offsetRange, .absOdd] := by
  rw [resAbs2_eq] at h
  split_ifs at h
  all_goals
    cases h
    decide

/-- The causes of the slots' rows: EMIT's column of the matrix, the template's causes apart. -/
theorem slotCause_mem (len : Nat) (w : Letter → Nat) (sl : TypedSlot) :
    slotCause len w sl ∈ [Cause.regRange, .regWidth, .pairInvalid, .pairRange, .immRange, .soffRange,
      .fixedMismatch, .absOdd, .offsetRange] := by
  cases sl with
  | uimm | simm | fixed => simp [slotCause]
  | reg | pair | rel | abs2 =>
    rw [slotCause]
    split_ifs <;> decide

theorem emitBytes_error {P : Config.Params} {len : Nat} {slots : List TypedSlot} {template : String}
    (h : emitBytes P len slots template = .error c) :
    c ∈ emitCauses [.regRange, .regWidth, .pairInvalid, .pairRange, .immRange, .soffRange,
      .fixedMismatch, .absOdd, .offsetRange] := by
  obtain ⟨-, rfl⟩ | ⟨items, -, ⟨-, rfl⟩ | ⟨-, sl, -, rfl⟩ | ⟨-, rfl⟩⟩ := emitBytes_error_cases h
  · decide
  · decide
  · exact List.mem_append_right _ (slotCause_mem len _ sl)
  · decide

end ComputedCause

/-- Settles O17: the cause recorded is the one computed, and each computation's causes are known from
its tests; the default tables leave EMIT.MODE and EMIT.DISP no template fault. -/
theorem faultMatrix : Obligations.FaultMatrix := by
  intro i s t hs h ht
  cases i with
  | offAbs | amPlain | amPreDec | amPostInc | amDisp => exact nomatch pureCommand_cause hs ht h
  | offRel bytes => exact cause_mem_of_test hs ht (offRel_eq bytes) h
  | encReg5 r => exact cause_mem_of_test hs ht (encReg5_eq r) h
  | encReg4 r => exact cause_mem_of_test hs ht (encReg4_eq r) h
  | encReg3 r => exact cause_mem_of_test hs ht (encReg3_eq r) h
  | encReg10 r => exact cause_mem_of_test hs ht (encReg10_eq r) h
  | encPair p n => exact encPair_error (pureCommand_map_cause hs ht h)
  | encUimm v n => exact cause_mem_of_test hs ht (encUimm_eq v n.bits) h
  | encSoff v n => exact cause_mem_of_test hs ht (encSoff_eq v n.bits) h
  | encFixed p => exact cause_mem_of_test hs ht (encFixed_eq params p) h
  | resAbs off => exact cause_mem_of_test hs ht (resAbs_eq s.len off) h
  | resAbs2 off => exact resAbs2_error (pureCommand_map_cause hs ht h)
  | resRel off => exact cause_mem_of_test hs ht (resRel_eq s.len off) h
  | pack fields template => exact packBytes_error fields template _ (appendCommand_cause hs ht h)
  | selMode cls am => simpa [mayRaise] using selMode_error (pureCommand_map_cause hs ht h)
  | selDisp cls am => simpa [mayRaise] using selDisp_error (pureCommand_map_cause hs ht h)
  | emit entry operands =>
    cases hb : bindSlots entry.slots operands with
    | some slots =>
      rw [exec_emit hb] at h
      exact emitBytes_error (appendCommand_cause hs ht h)
    | none =>
      rw [exec_illTyped (by simp [Instr.wf, hb]), attempt_running s _ hs] at h
      cases h
  | emitMode cls reg am =>
    obtain hc | hc := emitModeBytes_error defaultParametersAreRight (appendCommand_cause hs ht h)
    all_goals simp [mayRaise, emitCauses, hc]
  | emitDisp cls reg am =>
    obtain hc | hc | hc := emitDispBytes_error defaultParametersAreRight (appendCommand_cause hs ht h)
    all_goals simp [mayRaise, emitCauses, hc]
  | reset | rdlen | rdout | rdstat =>
    cases h
    simp [hs] at ht

end Sys2Proof.Proofs

/-! ## PACK's tests in their order (rules R121, R122, R125, R203) -/

namespace Sys2Proof.Proofs

open Sys2Proof.Machine Sys2Proof.Safety

section PackStages

variable {fields : List PackField} {template : String} {items : List Item} {c : Cause}

theorem packBytes_of_parse_error (hparse : parseTemplate template = .error c) :
    packBytes fields template = .error c := by
  rw [packBytes, hparse, except_error_bind]

/-- The letters are tested before anything of the triples' widths (rule R122). -/
theorem packBytes_of_not_lettersMatch (hparse : parseTemplate template = .ok items)
    (hletters : ¬ lettersMatch (fieldLetters fields) items) :
    packBytes fields template = .error .designatorMismatch := by
  rw [lettersMatch, ← noRepeat_iff, ← sameLetters_iff] at hletters
  rw [packBytes, hparse, except_ok_bind, require_bind]
  split_ifs with hnodup
  · rw [require_bind, if_neg fun hsame => hletters ⟨hnodup, hsame⟩]
  · rfl

/-- The declared widths are tested before the total (rules R122, R125). -/
theorem packBytes_of_width_ne (hparse : parseTemplate template = .ok items)
    (hletters : lettersMatch (fieldLetters fields) items)
    (hwidth : ∃ f ∈ fields, f.width ≠ letterCount items f.letter) :
    packBytes fields template = .error .widthMismatch := by
  obtain ⟨hnodup, hsame⟩ := hletters
  rw [packBytes, hparse, except_ok_bind, require_bind, if_pos ((noRepeat_iff _).mpr hnodup),
    require_bind, if_pos ((sameLetters_iff _ _).mpr hsame), require_bind, if_neg (by simpa using hwidth)]

end PackStages

/-- Settles O38: the tests in their order, each after the ones before it have passed. -/
theorem packFaultsInOrder : Obligations.PackFaultsInOrder := by
  intro fields template s hf
  refine ⟨fun hillegal => ?_, fun items hparse => ⟨fun hletters => ?_, fun hletters hwidth => ?_,
    fun hletters hwidths h16 h32 => ?_⟩⟩
  all_goals
    rw [exec_pack]
    refine appendCommand_of_error hf ?_
  · exact packBytes_of_parse_error (parseTemplate_of_illegal hillegal)
  · exact packBytes_of_not_lettersMatch hparse hletters
  · exact packBytes_of_width_ne hparse hletters hwidth
  · rw [packBytes_of_fitting hparse hletters hwidths, if_neg (by simp [h16, h32])]

end Sys2Proof.Proofs

/-! ## Runs in which every command returned OK (rule R244) -/

namespace Sys2Proof.Proofs

open Sys2Proof.Machine Sys2Proof.Safety

@[simp] theorem okResponse_raiseFault (c : Cause) (s : State) : okResponse (raiseFault c s) = false := rfl

section OkRun

variable {s t : State}

/-- A command that answers OK in a state with no fault recorded records none: it would have answered
with the fault it raised (rule R204). -/
theorem exec_ok_keeps_unfaulted {i : Instr} (hs : s.fault = false) (h : exec i s = .next t)
    (hok : okResponse t = true) : t.fault = false := by
  by_contra hne
  have hraise : t = raiseFault t.cause s := eq_raiseFault_of_exec_fault hs h (by simpa using hne)
  rw [hraise, okResponse_raiseFault] at hok
  cases hok

/-- With no fault recorded, a record that decodes to nothing is not answered OK (rule R63). -/
theorem rejectCommand_not_ok {e : DecodeError} (hs : s.fault = false) (h : rejectCommand e s = .next t) :
    okResponse t = false := by
  obtain ⟨hf, -⟩ | ⟨-, rfl⟩ := rejectCommand_next e s t h
  · simp [hs] at hf
  · exact okResponse_raiseFault _ _

/-- A step keeps `FAULT` = 0 when it leaves an OK response. -/
theorem step_ok_keeps_unfaulted (hs : s.fault = false) (h : step s = .next t) (hok : okResponse t = true) :
    t.fault = false := by
  obtain ⟨-, rfl⟩ | ⟨c, rest, -, ⟨i, -, hi⟩ | ⟨e, -, he⟩⟩ := step_cases s t h
  · exact hs
  · exact exec_ok_keeps_unfaulted (s := { s with commands := rest }) hs hi hok
  · simp [rejectCommand_not_ok (s := { s with commands := rest }) hs he] at hok

theorem okRun_succ {k : Nat} (h : okRun (k + 1) s = some t) :
    ∃ u, step s = .next u ∧ okResponse u = true ∧ okRun k u = some t := by
  unfold okRun at h
  cases hs : step s with
  | next u =>
    simp only [hs, Option.ite_none_right_eq_some] at h
    exact ⟨u, rfl, h⟩
  | fault r => rw [hs] at h; cases h
  | refused r => rw [hs] at h; cases h

theorem okRun_keeps_unfaulted {k : Nat} (hs : s.fault = false) (h : okRun k s = some t) :
    t.fault = false := by
  induction k generalizing s with
  | zero => cases h; exact hs
  | succ k ih =>
    obtain ⟨u, hu, hok, hrun⟩ := okRun_succ h
    exact ih (step_ok_keeps_unfaulted hs hu hok) hrun

end OkRun

theorem endedWell_iff (cs : List Command) :
    endedWell cs = true ↔
      ∃ t, okRun cs.length { State.reset with commands := cs } = some t ∧ t.fault = false := by
  rw [endedWell]
  cases okRun cs.length { State.reset with commands := cs } <;> simp

/-- Settles O19, by induction on the number of steps: in the test of `FAULT` at the end of a run from
reset there is nothing left to fail. -/
theorem okRunsEndUnfaulted : Obligations.OkRunsEndUnfaulted := by
  refine ⟨fun k s t hs h => ?_, fun cs => ?_⟩
  · have ht : t.fault = false := okRun_keeps_unfaulted hs h
    exact ⟨ht, ht⟩
  · rw [endedWell_iff]
    exact exists_congr fun t => and_iff_left_of_imp (okRun_keeps_unfaulted rfl)

end Sys2Proof.Proofs
